-- ==== Sys2Proof/Word.lean ====
section
/-! DEFINITION. The words, index types and colours of the block (00_scope.md R7, 48_arithmetic_sequencing_access.md R200). -/

namespace Sys2Proof

/-- A byte of `MEM` (R7: bit 7 is the most significant). -/
abbrev Byte := BitVec 8

/-- An address of `MEM`, 0..65535 (R14). No other address can be written. -/
abbrev Addr := Fin 65536

/-- A hue index 0..7 (R18). -/
abbrev Hue := Fin 8

/-- A shade index 0..3 (R70). -/
abbrev Shade := Fin 4

/-- A cell of the nametable or of the text table, 0..959 (R80). -/
abbrev Cell := Fin 960

/-- A slot of the object table, 0..63 (R88). -/
abbrev ObjSlot := Fin 64

/-- A row or a column inside a tile, 0..7 (R72: an out-of-range coordinate cannot be written). -/
abbrev TileCoord := Fin 8

/-- A `TILE` record: sixteen bytes at ascending addresses (R51). -/
abbrev Tile := Vector Byte 16

/-- The 8 × 8 shades of a decoded tile, rows first (R71). -/
abbrev Grid := Vector (Vector Shade 8) 8

/-- One glyph: 64 Booleans, rows first, true = shade 3 (R95). -/
abbrev Glyph := Vector (Vector Bool 8) 8

/-- `FONT`, the 128 glyphs (R19). -/
abbrev Font := Vector Glyph 128

/-- A colour `(R, G, B)` (R107). The channels are exact naturals, bounded by `CH_MAX` where the spec
bounds them (`Colour.within`). -/
structure Colour where
  r : Nat
  g : Nat
  b : Nat
  deriving DecidableEq, Repr, Inhabited

/-- Black, the colour of a cleared pixel (R100) and of shade 0 (R76). -/
def Colour.black : Colour := ⟨0, 0, 0⟩

/-- Every channel lies in 0..`chMax` (R18). -/
def Colour.within (chMax : Nat) (c : Colour) : Bool :=
  decide (c.r ≤ chMax) && decide (c.g ≤ chMax) && decide (c.b ≤ chMax)

/-- `PAL`, eight hues of four shades (R18). -/
abbrev Palette := Vector (Vector Colour 4) 8

/-- The eight full-brightness colours, a launch parameter (R6, R160). -/
abbrev FullColours := Vector Colour 8

/-- `KEYS`, one Boolean per logical button, true while the key is down (R113). -/
structure Keys where
  a : Bool
  b : Bool
  select : Bool
  start : Bool
  up : Bool
  down : Bool
  left : Bool
  right : Bool
  deriving DecidableEq, Repr, Inhabited

/-- No key is down. -/
def Keys.released : Keys := ⟨false, false, false, false, false, false, false, false⟩

/-- The result of one single-cycle step of the CPU core (R143). The spec gives the four values no
numeric code (R59). -/
inductive CpuResult where
  | continuing
  | instructionBoundary
  | frameSync
  | halt
  deriving DecidableEq, Repr, Inhabited

/-- One single-cycle step of the external CPU core, seen from the block: the bytes it stores, oldest
first, and its result (R5, R143). -/
structure CpuCycle where
  writes : List (Addr × Byte)
  result : CpuResult
  deriving DecidableEq, Repr, Inhabited

/-- Why a run of the process ends from outside (R155, R165). -/
inductive CloseSignal where
  /-- "an external window-close signal" (R155). -/
  | windowClose
  /-- "normal process exit", whose trigger the source does not give (R165, N13). -/
  | normalExit
  deriving DecidableEq, Repr, Inhabited

/-- What the external agents hold out to the block and its host at one moment: the key vector
(R113), the CPU cycle that runs if it is the CPU's turn (R143), the operator's line that is read if
the Monitor asks for one (R122), whether the dump file can be opened (R129) and a signal that ends
the process (R155). The part whose turn it is not is not looked at. -/
structure Moment where
  keys : Keys
  cpu : CpuCycle
  line : List Byte
  dumpOpens : Bool
  close : Option CloseSignal
  deriving DecidableEq, Repr, Inhabited

end Sys2Proof
end

