-- ==== Sys2Proof/Config.lean ====
section
/-! DEFINITION. What an implementation fixes (00_scope.md R6) and the free values, which nothing constrains. -/

namespace Sys2Proof

/-- The OPEN parameters of R6 that stay fixed while the machine runs, and the host's choice of U7.
Each base is typed so that its whole region lies inside 0..65535 (R33). `FULL` and `FONT` are launch
inputs (R160) and stand in `Launch`. DESIGN CHOICE (log 1): a field of `State`, so that a claim about
every state is a claim about every layout. -/
structure Config where
  fgPtBase : Fin 65025
  bgPtBase : Fin 65025
  ntBase : Fin 64577
  bgpalAddr : Addr
  objBase : Fin 65281
  txtBase : Fin 64577
  ctrl1Addr : Addr
  ctrl2Addr : Addr
  chBits : Nat
  textHueSet : Hue
  textHueClear : Hue
  /-- Bit position of `hue0` in `BGPAL`: a 3-bit field of a byte starts at 0..5 (R55). -/
  hue0Lsb : Fin 6
  hue1Lsb : Fin 6
  /-- U7, the host's choice: a memory image of more than 65536 bytes is used up to byte 65535 (true)
  or rejected (false). -/
  longImageAccepted : Bool
  deriving DecidableEq, Repr

namespace Config

/-- `CH_MAX = 2^CH_BITS - 1` (R6). -/
def chMax (c : Config) : Nat := 2 ^ c.chBits - 1

/-- The eight regions of R33: first address and size in bytes, the two controller bytes counting as
two regions. -/
def regions (c : Config) : List (Nat × Nat) :=
  [(c.fgPtBase.val, 512), (c.bgPtBase.val, 512), (c.ntBase.val, 960), (c.bgpalAddr.val, 1),
   (c.objBase.val, 256), (c.txtBase.val, 960), (c.ctrl1Addr.val, 1), (c.ctrl2Addr.val, 1)]

/-- Two regions share no address. -/
abbrev apart (p q : Nat × Nat) : Prop := p.1 + p.2 ≤ q.1 ∨ q.1 + q.2 ≤ p.1

/-- "non-overlapping": the regions are pairwise disjoint (R6, R33). -/
abbrev disjoint (c : Config) : Prop := c.regions.Pairwise apart

/-- The spec's reference configuration REFCFG (R6). DESIGN CHOICE (log 1, log 10): `State.reset` uses
it; no statement about the hardware may rest on its numbers. -/
def reference : Config where
  fgPtBase := 0x3700
  bgPtBase := 0x3900
  ntBase := 0x3B00
  bgpalAddr := 0x3EC0
  objBase := 0x3F00
  txtBase := 0x4000
  ctrl1Addr := 0x7002
  ctrl2Addr := 0x7003
  chBits := 8
  textHueSet := 7
  textHueClear := 0
  hue0Lsb := 0
  hue1Lsb := 3
  longImageAccepted := true

/-- REFCFG's `FULL[h] = (255·h[2], 255·h[1], 255·h[0])` (R6). -/
def referenceFull : FullColours :=
  Vector.ofFn fun h => ⟨255 * (h.val / 4 % 2), 255 * (h.val / 2 % 2), 255 * (h.val % 2)⟩

/-- The test font of 95_test_vectors.md T2, REFCFG's `FONT` (R6): glyph 1 is solid, glyph 0x41 is the
main diagonal, every other glyph is empty. -/
def referenceFont : Font :=
  Vector.ofFn fun g => Vector.ofFn fun r => Vector.ofFn fun c =>
    decide (g = 1) || (decide (g = 0x41) && decide (r = c))

/-- FREE VALUE (log 5): what the external agents do when nothing is queued (U10, D29). -/
opaque freeMoment : Nat → Moment

/-- FREE VALUE (log 4): the colour read from a pixel that nothing has written since reset (U4). -/
opaque freeColour : Nat → Colour

/-- FREE VALUE (log 9): the glyph bit of a pixel that a too small font image does not have (U8). -/
opaque freeFontBit : Nat → Fin 128 → TileCoord → TileCoord → Bool

end Config
end Sys2Proof
end

