-- ==== Sys2Proof/Syntax.lean ====
section
/-! DEFINITION. The records, launch inputs and operations: one constructor of `Instr` per row of opcode_table.json. -/

namespace Sys2Proof

/-- `NTE`, a nametable entry with its fields pulled out (R52). -/
structure Nte where
  hsel : Bool
  hflip : Bool
  vflip : Bool
  pat : Fin 32
  deriving DecidableEq, Repr

/-- `OBJE`, an object entry with its fields pulled out (R53). The unnamed bits are ignored (R60). -/
structure Obje where
  x : Fin 256
  y : Fin 256
  hflip : Bool
  vflip : Bool
  pat : Fin 32
  hue : Hue
  deriving DecidableEq, Repr

/-- `TXTE`, a text entry with its fields pulled out (R54). -/
structure Txte where
  tsel : Bool
  glyph : Fin 128
  deriving DecidableEq, Repr

/-- The operands of `BLIT` (R103); `shades` is the function `shade_of` written out. -/
structure Blit where
  shades : Grid
  ox : Fin 256
  oy : Fin 256
  hue : Hue
  hflip : Bool
  vflip : Bool
  transparent0 : Bool
  deriving DecidableEq, Repr

/-- The font image of R99: its width in pixels, its channels' maximum and its rows of pixels, top to
bottom, each left to right. -/
structure FontImage where
  width : Nat
  chMax : Nat
  rows : List (List Colour)
  deriving DecidableEq, Repr

/-- The memory image argument of the command line (R135, R141). -/
inductive ImageFile where
  /-- The positional argument is missing. -/
  | missingArgument
  /-- The file is missing or cannot be read. -/
  | unreadable
  /-- The file's bytes. -/
  | contents (bytes : List Byte)
  deriving DecidableEq, Repr

/-- What `RESET` is given from outside (R160, R161, R164). -/
structure Launch where
  image : ImageFile
  full : FullColours
  /-- The font asset, `none` when it is unreadable. -/
  font : Option FontImage
  /-- Whether the presentation layer initialises. -/
  presentation : Bool
  deriving DecidableEq, Repr

/-- The operations of the block and its host: one constructor per row of opcode_table.json, in the
table's order. A record row carries the record's fields and the position it was fetched at (log 27). -/
inductive Instr where
  /-- `PDEC(P, r, c)` (R70). -/
  | pdec (p : Tile) (r c : TileCoord)
  /-- `BGTILE(i)` on the entry fetched at cell i (R81). -/
  | bgtile (i : Cell) (e : Nte)
  /-- `OBJDRAW(k)` on the entry fetched at slot k (R87). -/
  | objdraw (k : ObjSlot) (o : Obje)
  /-- `TXTCELL(i)` on the entry fetched at cell i (R96). -/
  | txtcell (i : Cell) (e : Txte)
  /-- `BGPAL`, the register byte whole (R55); the fields' places are parameters. -/
  | bgpal (b : Byte)
  /-- `INLATCH` (R114). -/
  | inlatch
  /-- `PDECT(P)` (R71). -/
  | pdect (p : Tile)
  /-- `PINIT(FULL)` (R75). -/
  | pinit (full : FullColours)
  /-- `PLUT(h, s)` (R77). -/
  | plut (h : Hue) (s : Shade)
  /-- `BGWALK` (R82). -/
  | bgwalk
  /-- `OBJWALK` (R88). -/
  | objwalk
  /-- `TXTWALK` (R97). -/
  | txtwalk
  /-- `FINIT(IMG)` (R99). -/
  | finit (img : FontImage)
  /-- `FBCLR` (R100). -/
  | fbclr
  /-- `FBWR`, `FbWrite(x, y, v)` (R101). -/
  | fbwr (x y : Nat) (v : Colour)
  /-- `FBRD`, `FbRead(x, y)` (R102: bounded coordinates). -/
  | fbrd (x : Fin 256) (y : Fin 240)
  /-- `BLIT` (R103). -/
  | blit (b : Blit)
  /-- `COMPOSE` (R104). -/
  | compose
  /-- `FRAMESYNC` (R144). -/
  | framesync
  /-- `HALT` (R145). -/
  | halt
  /-- `RESET(image, FULL, IMG)` (R161). -/
  | reset (l : Launch)
  /-- Monitor `help` (R125). -/
  | help
  /-- Monitor `step` (R126). -/
  | step
  /-- Monitor `frame` (R127). -/
  | frame
  /-- Monitor `peek` with the literals found in the rest of the line (R128). -/
  | peek (lo hi : Option Nat)
  /-- Monitor `dump` (R129). -/
  | dump
  /-- Monitor `run` (R131). -/
  | run
  /-- Monitor `quit` (R132). -/
  | quit
  deriving DecidableEq, Repr

/-- The two pattern tables (R33). -/
inductive PatternTable where
  | foreground
  | background
  deriving DecidableEq, Repr

/-- What plays the part of an opcode (R58, "Selected by"): the region and the position a record is
fetched from (R50, R62), the event (R59), the operator's line (R124), or a call by the sequencer or
by reset, which no bits select (R64). -/
inductive Selection where
  /-- A `TILE` record decoded at one pixel, as `BLIT` does: `PDEC`. -/
  | pixel (t : PatternTable) (p : Fin 32) (r c : TileCoord)
  /-- A `TILE` record decoded whole: `PDECT`. -/
  | tile (t : PatternTable) (p : Fin 32)
  /-- The `NTE` byte of a cell: `BGTILE`. -/
  | nametable (i : Cell)
  /-- The `OBJE` record of a slot: `OBJDRAW`. -/
  | object (k : ObjSlot)
  /-- The `TXTE` byte of a cell: `TXTCELL`. -/
  | text (i : Cell)
  /-- The `BGPAL` register. -/
  | palette
  /-- A step result of the CPU core: `FRAMESYNC`, `HALT` or nothing. -/
  | event (e : CpuResult)
  /-- The operator's line: a Monitor command. -/
  | line
  /-- A call of an operation that no bits select. -/
  | call (i : Instr)
  deriving DecidableEq, Repr

end Sys2Proof
end

