-- ==== Sys2Proof/WellFormed.lean ====
section
/-! DEFINITION. Which instruction terms the spec's operand ranges admit. -/

namespace Sys2Proof

/-- Every full-brightness channel lies in 0..`CH_MAX` (R6). -/
def FullColours.within (chMax : Nat) (full : FullColours) : Bool :=
  full.toList.all (Colour.within chMax)

/-- The image holds 128 whole 8 × 8 blocks, `width div 8` per row of blocks (R99, U8). -/
def FontImage.complete (img : FontImage) : Bool :=
  decide (8 ≤ img.width) && decide (8 * (127 / (img.width / 8) + 1) ≤ img.rows.length)
    && img.rows.all fun row => decide (row.length = img.width)

/-- "a flat binary file of exactly 65536 bytes" (R14, R135). -/
def ImageFile.exact : ImageFile → Bool
  | .contents bytes => decide (bytes.length = 65536)
  | .missingArgument => false
  | .unreadable => false

/-- A launch the spec gives a running block for: a complete image, colours in range, a complete font
image, a presentation layer (R160, R164). -/
def Launch.complete (chMax : Nat) (l : Launch) : Bool :=
  l.image.exact && l.full.within chMax && (match l.font with | some img => img.complete | none => false)
    && l.presentation

/-- The operand ranges of the spec that the operand's type does not carry already, under a
configuration. The meanings do not look at this: they answer on every term (log 33). -/
def Instr.wellFormed (cfg : Config) : Instr → Bool
  | .pdec _ _ _ => true
  | .bgtile _ _ => true
  | .objdraw _ _ => true
  | .txtcell _ _ => true
  | .bgpal _ => true
  | .inlatch => true
  | .pdect _ => true
  | .pinit full => full.within cfg.chMax
  | .plut _ _ => true
  | .bgwalk => true
  | .objwalk => true
  | .txtwalk => true
  | .finit img => img.complete
  | .fbclr => true
  | .fbwr x y v => decide (x ≤ 262) && decide (y ≤ 262) && v.within cfg.chMax
  | .fbrd _ _ => true
  | .blit _ => true
  | .compose => true
  | .framesync => true
  | .halt => true
  | .reset l => l.complete cfg.chMax
  | .help => true
  | .step => true
  | .frame => true
  | .peek lo hi => lo.isSome || hi.isNone
  | .dump => true
  | .run => true
  | .quit => true

end Sys2Proof
end

