-- ==== Sys2Proof/Decode.lean ====
section
/-! DEFINITION. From bits to operations and back: the record formats (30_encoding.md), the operator's line (47_monitor_host.md), and the host's table words. -/

namespace Sys2Proof

/-! ### Bit fields -/

/-- The `w` bits of a byte from bit `lo` up, `v[lo+w-1 : lo]` of R7. -/
def bits (b : Byte) (lo w : Nat) : Fin (2 ^ w) := (b.extractLsb' lo w).toFin

/-- One bit of a byte, `v[i]` of R7. -/
def bit (b : Byte) (i : Nat) : Bool := b.getLsbD i

/-! ### The record formats -/

/-- `NTE` (R52): bit 7 hsel, bit 6 hflip, bit 5 vflip, bits 4:0 pat. -/
def Nte.ofByte (b : Byte) : Nte where
  hsel := bit b 7
  hflip := bit b 6
  vflip := bit b 5
  pat := bits b 0 5

/-- `OBJE` (R53): bytes x, y, pattern_config, color; the unnamed bits are not read (R60). -/
def Obje.ofBytes (x y config color : Byte) : Obje where
  x := x.toFin
  y := y.toFin
  hflip := bit config 6
  vflip := bit config 5
  pat := bits config 0 5
  hue := bits color 0 3

/-- `TXTE` (R54): bit 7 tsel, bits 6:0 glyph. -/
def Txte.ofByte (b : Byte) : Txte where
  tsel := bit b 7
  glyph := bits b 0 7

/-- `CTRL` (R56), as software decodes it. -/
def Keys.ofByte (b : Byte) : Keys where
  a := bit b 7
  b := bit b 6
  select := bit b 5
  start := bit b 4
  up := bit b 3
  down := bit b 2
  left := bit b 1
  right := bit b 0

/-- The first sixteen bytes as a `TILE` record (R51), and the bytes after them. -/
def takeTile (bs : List Byte) : Option (Tile × List Byte) :=
  if h : 16 ≤ bs.length then some (⟨(bs.take 16).toArray, by simpa using h⟩, bs.drop 16) else none

/-! ### The operator's line -/

/-- The Monitor's vocabulary (R124). -/
inductive Command where
  | help
  | step
  | frame
  | peek
  | dump
  | run
  | quit
  deriving DecidableEq, Repr

/-- The letters of each word. PRESUMED (log 14): ASCII codes, since the spec names no character set. -/
def Command.word : Command → List Byte
  | .help => [0x68, 0x65, 0x6C, 0x70]
  | .step => [0x73, 0x74, 0x65, 0x70]
  | .frame => [0x66, 0x72, 0x61, 0x6D, 0x65]
  | .peek => [0x70, 0x65, 0x65, 0x6B]
  | .dump => [0x64, 0x75, 0x6D, 0x70]
  | .run => [0x72, 0x75, 0x6E]
  | .quit => [0x71, 0x75, 0x69, 0x74]

/-- The seven words (R124). -/
def vocabulary : List Command := [.help, .step, .frame, .peek, .dump, .run, .quit]

/-- The loop of `CLASSIFY` from character `n` on (R123): a candidate stays while it has the typed
character at `n`; one left is the command, none left is unrecognized. -/
def classifyFrom (n : Nat) (cand : List Command) : List Byte → Option Command
  | [] => none
  | ch :: rest =>
    match cand.filter fun w => decide (w.word[n]? = some ch) with
    | [] => none
    | [w] => some w
    | w :: w' :: ws => classifyFrom (n + 1) (w :: w' :: ws) rest

/-- `CLASSIFY(line)` (R123); `none` is Unrecognized. -/
def classify (line : List Byte) : Option Command := classifyFrom 0 vocabulary line

/-- DESIGN CHOICE (log 13): a blank is a space or a horizontal tab. -/
def isBlank (ch : Byte) : Bool := decide (ch = 0x20) || decide (ch = 0x09)

/-- The value of a character as a digit of a base up to 16 (R130, hexadecimal in both cases). -/
def digitValue (base : Nat) (ch : Byte) : Option Nat :=
  let n := ch.toNat
  let v := if 0x30 ≤ n ∧ n ≤ 0x39 then some (n - 0x30)
    else if 0x41 ≤ n ∧ n ≤ 0x46 then some (n - 0x41 + 10)
    else if 0x61 ≤ n ∧ n ≤ 0x66 then some (n - 0x61 + 10)
    else none
  v.filter fun d => decide (d < base)

/-- The digit loop of `PARSE_NUM` (R130): the value, the number of digits and the rest. -/
def scanDigits (base v n : Nat) : List Byte → Nat × Nat × List Byte
  | [] => (v, n, [])
  | ch :: rest =>
    match digitValue base ch with
    | some d => scanDigits base (v * base + d) (n + 1) rest
    | none => (v, n, ch :: rest)

/-- The base a literal's prefix names, and the literal without the prefix: `$` 16, `%` 2, else 10. -/
def literalBase : List Byte → Nat × List Byte
  | [] => (10, [])
  | ch :: rest =>
    if ch = 0x24 then (16, rest) else if ch = 0x25 then (2, rest) else (10, ch :: rest)

/-- `PARSE_NUM(s)` (R130): the value, `none` for a missing operand, and the rest of the text. -/
def parseNum (s : List Byte) : Option Nat × List Byte :=
  let (base, digits) := literalBase (s.dropWhile isBlank)
  let (v, n, rest) := scanDigits base 0 0 digits
  (if n = 0 then none else some v, rest)

/-- The operands of a `peek` line (R128): what stands after its first blank-delimited word. A second
literal is looked for only after a first one. -/
def peekOperands (line : List Byte) : Option Nat × Option Nat :=
  match parseNum (line.dropWhile fun ch => !isBlank ch) with
  | (some lo, rest) => (some lo, (parseNum rest).1)
  | (none, _) => (none, none)

/-- The operation an operator's line selects; `none` is Unrecognized (R133). -/
def decodeLine (line : List Byte) : Option Instr :=
  match classify line with
  | some .help => some .help
  | some .step => some .step
  | some .frame => some .frame
  | some .peek => some (.peek (peekOperands line).1 (peekOperands line).2)
  | some .dump => some .dump
  | some .run => some .run
  | some .quit => some .quit
  | none => none

/-! ### The decoder -/

/-- The rows that no bits select (R64: formats INTERNAL and RESET), and `INLATCH`, whose row gives the
byte it writes. -/
def Instr.calledOnly : Instr → Bool
  | .pdec _ _ _ => false
  | .bgtile _ _ => false
  | .objdraw _ _ => false
  | .txtcell _ _ => false
  | .bgpal _ => false
  | .inlatch => true
  | .pdect _ => false
  | .pinit _ => true
  | .plut _ _ => true
  | .bgwalk => true
  | .objwalk => true
  | .txtwalk => true
  | .finit _ => true
  | .fbclr => true
  | .fbwr _ _ _ => true
  | .fbrd _ _ => true
  | .blit _ => true
  | .compose => true
  | .framesync => false
  | .halt => false
  | .reset _ => true
  | .help => false
  | .step => false
  | .frame => false
  | .peek _ _ => false
  | .dump => false
  | .run => false
  | .quit => false

/-- The decoder: what a selection and the bytes at its place select, and the bytes left over. Total on
any bytes; `none` is a selection that selects no operation (too few bytes, an unrecognized line, a
step result the driver does nothing for, a call of an operation that is not called). -/
def decode (sel : Selection) (bs : List Byte) : Option (Instr × List Byte) :=
  match sel with
  | .pixel _ _ r c =>
    match takeTile bs with
    | some (p, rest) => some (.pdec p r c, rest)
    | none => none
  | .tile _ _ =>
    match takeTile bs with
    | some (p, rest) => some (.pdect p, rest)
    | none => none
  | .nametable i =>
    match bs with
    | b :: rest => some (.bgtile i (Nte.ofByte b), rest)
    | [] => none
  | .object k =>
    match bs with
    | x :: y :: config :: color :: rest => some (.objdraw k (Obje.ofBytes x y config color), rest)
    | _ => none
  | .text i =>
    match bs with
    | b :: rest => some (.txtcell i (Txte.ofByte b), rest)
    | [] => none
  | .palette =>
    match bs with
    | b :: rest => some (.bgpal b, rest)
    | [] => none
  | .event .continuing => none
  | .event .instructionBoundary => none
  | .event .frameSync => some (.framesync, bs)
  | .event .halt => some (.halt, bs)
  | .line => (decodeLine bs).map fun i => (i, [])
  | .call i => if i.calledOnly then some (i, bs) else none

/-! ### The encoder -/

/-- The `NTE` byte (R52). -/
def Nte.toByte (e : Nte) : Byte :=
  BitVec.ofBool e.hsel ++ BitVec.ofBool e.hflip ++ BitVec.ofBool e.vflip ++ (BitVec.ofFin e.pat : BitVec 5)

/-- The `OBJE` bytes (R53), the unnamed bits zero. -/
def Obje.toBytes (o : Obje) : List Byte :=
  [BitVec.ofFin o.x, BitVec.ofFin o.y,
   0#1 ++ BitVec.ofBool o.hflip ++ BitVec.ofBool o.vflip ++ (BitVec.ofFin o.pat : BitVec 5),
   0#5 ++ (BitVec.ofFin o.hue : BitVec 3)]

/-- The `TXTE` byte (R54). -/
def Txte.toByte (e : Txte) : Byte :=
  BitVec.ofBool e.tsel ++ (BitVec.ofFin e.glyph : BitVec 7)

/-- The decimal digits of a number, most significant first; `fuel` bounds their count. -/
def decimalDigits : Nat → Nat → List Byte
  | 0, _ => []
  | fuel + 1, n =>
    (if n < 10 then [] else decimalDigits fuel (n / 10)) ++ [BitVec.ofNat 8 (0x30 + n % 10)]

/-- A plain decimal literal (R130). -/
def decimalLiteral (n : Nat) : List Byte := decimalDigits (n + 1) n

/-- A `peek` operand with the blank before it (R128). -/
def encodeOperand : Option Nat → List Byte
  | some n => 0x20 :: decimalLiteral n
  | none => []

/-- A selection and bytes that stand for an operation. The pattern of a `TILE` record is written for
foreground entry 0: the record's bytes do not depend on where it lies. -/
def encode : Instr → Selection × List Byte
  | .pdec p r c => (.pixel .foreground 0 r c, p.toList)
  | .bgtile i e => (.nametable i, [e.toByte])
  | .objdraw k o => (.object k, o.toBytes)
  | .txtcell i e => (.text i, [e.toByte])
  | .bgpal b => (.palette, [b])
  | .inlatch => (.call .inlatch, [])
  | .pdect p => (.tile .foreground 0, p.toList)
  | .pinit full => (.call (.pinit full), [])
  | .plut h s => (.call (.plut h s), [])
  | .bgwalk => (.call .bgwalk, [])
  | .objwalk => (.call .objwalk, [])
  | .txtwalk => (.call .txtwalk, [])
  | .finit img => (.call (.finit img), [])
  | .fbclr => (.call .fbclr, [])
  | .fbwr x y v => (.call (.fbwr x y v), [])
  | .fbrd x y => (.call (.fbrd x y), [])
  | .blit b => (.call (.blit b), [])
  | .compose => (.call .compose, [])
  | .framesync => (.event .frameSync, [])
  | .halt => (.event .halt, [])
  | .reset l => (.call (.reset l), [])
  | .help => (.line, Command.help.word)
  | .step => (.line, Command.step.word)
  | .frame => (.line, Command.frame.word)
  | .peek lo hi => (.line, Command.peek.word ++ encodeOperand lo ++ encodeOperand hi)
  | .dump => (.line, Command.dump.word)
  | .run => (.line, Command.run.word)
  | .quit => (.line, Command.quit.word)

/-! ### The host's table words -/

/-- Where a word of opcode_table.json stands, and its bytes, first byte first. The table's rows have no
opcode bits, so a word alone does not say its region (R64). DESIGN CHOICE (log 19): 8 bits that are a
Monitor command's first letter are that command's line; other 8 bits are the first byte of a `TILE`
record whose other bytes are zero, decoded at row 0, column 0; 32 bits are the object entry of slot
0; any other width selects nothing. -/
def tableSelection (nbits w : Nat) : Option (Selection × List Byte) :=
  let byte := fun k => BitVec.ofNat 8 (w >>> (8 * k))
  match nbits with
  | 8 =>
    if (classify [byte 0]).isSome then some (.line, [byte 0])
    else some (.pixel .foreground 0 0 0, byte 0 :: List.replicate 15 0)
  | 32 => some (.object 0, [byte 0, byte 1, byte 2, byte 3])
  | _ => none

/-- The instruction the decoder reads from a table word (bit 0 is the least significant bit of the
first byte). -/
def decodeTableWord (nbits w : Nat) : Option Instr :=
  match tableSelection nbits w with
  | some (sel, bs) => (decode sel bs).map Prod.fst
  | none => none

end Sys2Proof
end

