-- ==== Sys2Proof/Machine/Flags.lean ====
section
/-! DEFINITION. The block has no flags (10_state.md R13); its one status byte is the controller byte. -/

namespace Sys2Proof.Machine

/-- The weight of one button: its mask while the key is down, else 0 (R114, R115). -/
def buttonMask (down : Bool) (mask : Byte) : Byte := if down then mask else 0

/-- The `CTRL` byte `INLATCH` packs from `KEYS` (R114): A 0x80, B 0x40, Select 0x20, Start 0x10, Up 0x08,
Down 0x04, Left 0x02, Right 0x01. -/
def ctrlByte (k : Keys) : Byte :=
  buttonMask k.a 0x80 ||| buttonMask k.b 0x40 ||| buttonMask k.select 0x20 ||| buttonMask k.start 0x10
    ||| buttonMask k.up 0x08 ||| buttonMask k.down 0x04 ||| buttonMask k.left 0x02 ||| buttonMask k.right 0x01

end Sys2Proof.Machine
end

