-- ==== Sys2Proof/Machine/Memory.lean ====
section
/-! DEFINITION. `MEM` as sparse plain data in one canonical form (10_state.md R14, 20_memory.md R30). -/

namespace Sys2Proof.Machine

/-- The cells of `MEM` that differ from `Memory.unlisted`, by rising address. -/
abbrev Memory := List Host.Cell

namespace Memory

/-- What an address that no cell lists reads as: the byte of the all-zero memory image. DESIGN CHOICE
(log 2); every image is listed over it. -/
def unlisted : Byte := 0

/-- The byte at an address: `MemRead(a, 1)` (R8). Reading changes nothing (R36). -/
def read (m : Memory) (a : Nat) : Byte :=
  match m with
  | [] => unlisted
  | (k, v) :: rest => if k = a then v else read rest a

/-- A cell in front of a memory of higher addresses, left out when it holds what an unlisted address
reads as. -/
def listed (a : Nat) (b : Byte) (rest : Memory) : Memory :=
  if b = unlisted then rest else (a, b) :: rest

/-- `MemWrite(a, 1, b)` (R8): the byte replaced, every other byte kept (R36). -/
def write (m : Memory) (a : Nat) (b : Byte) : Memory :=
  match m with
  | [] => listed a b []
  | (k, v) :: rest =>
    if a < k then listed a b ((k, v) :: rest)
    else if k = a then listed a b rest
    else (k, v) :: write rest a b

/-- Bytes stored at ascending addresses from `a` (R31). -/
def writeBytes (m : Memory) (a : Nat) : List Byte → Memory
  | [] => m
  | b :: rest => writeBytes (m.write a b) (a + 1) rest

/-- The memory that holds the bytes from address `a` up and is unlisted elsewhere: how an image is
loaded (R14, R161). -/
def ofBytes (a : Nat) : List Byte → Memory
  | [] => []
  | b :: rest => listed a b (ofBytes (a + 1) rest)

/-- All 65536 bytes in ascending address order, the format of a memory image and of a dump (R129). -/
def toBytes (m : Memory) : List Byte := (List.range 65536).map m.read

/-- Every listed address is at least `lo` and below 65536, addresses rise strictly, and no cell holds
what an unlisted address reads as. -/
def canonicalFrom (lo : Nat) : Memory → Bool
  | [] => true
  | (k, v) :: rest =>
    decide (lo ≤ k) && decide (k < 65536) && decide (v ≠ unlisted) && canonicalFrom (k + 1) rest

/-- The canonical form: equal memories are equal lists. -/
def wf (m : Memory) : Bool := m.canonicalFrom 0

end Memory
end Sys2Proof.Machine
end

