-- ==== Sys2Proof/Machine/Tables.lean ====
section
/-! DEFINITION. The two lookup tables as functions of their launch inputs (41_palette_lut.md R75, 44_text_compositor.md R99). -/

namespace Sys2Proof.Machine

/-- One channel at a shade: the exact product first, then the division by 3 rounding down (R75, C2). -/
def scaleChannel (full shade : Nat) : Nat := full * shade / 3

/-- A hue's full-brightness colour at a shade (R75). -/
def scaleColour (full : Colour) (s : Shade) : Colour :=
  ⟨scaleChannel full.r s.val, scaleChannel full.g s.val, scaleChannel full.b s.val⟩

/-- `PAL` as `PINIT(FULL)` leaves it (R75). -/
def derivePalette (full : FullColours) : Palette :=
  Vector.ofFn fun h => Vector.ofFn fun s => scaleColour full[h] s

/-- The image pixel at column `px`, row `py` (R99); `none` where the image has none. -/
def imagePixel (img : FontImage) (py px : Nat) : Option Colour :=
  (img.rows[py]?).bind fun row => row[px]?

/-- "pure white (all of red, green, blue channels at maximum)" (R99). -/
def isPureWhite (img : FontImage) (p : Colour) : Bool :=
  decide (p.r = img.chMax) && decide (p.g = img.chMax) && decide (p.b = img.chMax)

/-- The image pixel of glyph `g` at row `r`, column `c`: blocks of 8 × 8 laid out row-major, `width div
8` to a row (R99). An image narrower than one block has no block. -/
def glyphPixel (img : FontImage) (g : Fin 128) (r c : TileCoord) : Option Colour :=
  let perRow := img.width / 8
  if perRow = 0 then none
  else imagePixel img (8 * (g.val / perRow) + r.val) (8 * (g.val % perRow) + c.val)

/-- `FONT` as `FINIT(IMG)` leaves it (R99). `free` stands for the bits of pixels the image lacks (log 9). -/
def loadFont (free : Fin 128 → TileCoord → TileCoord → Bool) (img : FontImage) : Font :=
  Vector.ofFn fun g => Vector.ofFn fun r => Vector.ofFn fun c =>
    match glyphPixel img g r c with
    | some p => isPureWhite img p
    | none => free g r c

end Sys2Proof.Machine
end

