-- ==== Sys2Proof/Machine/State.lean ====
section
/-! DEFINITION. The state of the block, its host and its interfaces (10_state.md), and its reset. -/

namespace Sys2Proof.Machine

/-- `FB[y][x]`, 240 rows of 256 pixels (R20). `none` is a pixel that nothing has written since reset:
its colour is unspecified (93_implementation_defined.md U4). -/
abbrev FrameBuffer := Vector (Vector (Option Colour) 256) 240

/-- The fatal startup errors (R141, category 1). -/
inductive StartupError where
  | missingArgument
  | imageUnreadable
  | imageUndersized
  /-- U7: the host's choice to reject an image that is too long. -/
  | imageOversized
  | fontUnreadable
  | presentationFailed
  deriving DecidableEq, Repr

/-- Why the process has ended (R121, R155, R164, R165). -/
inductive Ending where
  /-- The Monitor's Terminal(Quit). -/
  | quit
  | closed (c : CloseSignal)
  | startup (e : StartupError)
  deriving DecidableEq, Repr

/-- The situation of the system (R149) with the Monitor's states (R121). -/
inductive Mode where
  /-- The driver loop steps the CPU. -/
  | running
  /-- The Monitor waits for an operator line. -/
  | prompt
  /-- The Monitor cycles the CPU up to an InstructionBoundary result. -/
  | executingStep
  /-- The Monitor cycles the CPU up to a FrameSync result. -/
  | executingFrame
  /-- The process has ended. -/
  | ended (e : Ending)
  deriving DecidableEq, Repr

/-- An operator-visible message. The spec gives their occasions and not their texts (N12, log 8). -/
inductive Message where
  /-- The prompt's display of program counter, disassembly and registers of the CPU core (R122). -/
  | cpuDisplay
  /-- The usage text (R125, R133). -/
  | usage
  /-- One line of `peek` (R128). -/
  | memoryByte (a : Addr) (b : Byte)
  /-- "missing operand" (R128). -/
  | missingOperand
  /-- A `peek` literal above 0xFFFF (U6). -/
  | operandTooLarge
  /-- The dump file could not be opened (R129). -/
  | dumpOpenFailed
  /-- A fatal startup error, on the error stream (R141). -/
  | fatal (e : StartupError)
  deriving DecidableEq, Repr

/-- The result of the last operation that returns a value. The MODEL's own (log 7). -/
inductive Reply where
  | none
  /-- `PDEC`. -/
  | shade (s : Shade)
  /-- `PDECT`. -/
  | grid (g : Grid)
  /-- `PLUT` and `FBRD`. -/
  | colour (c : Colour)
  /-- `BGPAL`: hue0 and hue1. -/
  | hues (hue0 hue1 : Hue)
  deriving DecidableEq, Repr

/-- The block raises nothing: "A model's step for the block therefore never returns a fault" (R140).
There is no fault to name. -/
inductive Fault where
  deriving DecidableEq, Repr

/-- Why the model has no meaning for an operation. -/
inductive Refusal where
  /-- Raised by `exec` for a row without a meaning; safe. No row is left without one. -/
  | notModelled (mnemonic : String)
  deriving DecidableEq, Repr

/-- Everything the spec gives the machine (R10), the host agent's state (47_monitor_host.md), the
interfaces' outputs, and the model's own fields (INVENTORY.md). There is no cycle, time or instruction
counter and no compare register, because the block has none (R150); `drawn` counts free values only. -/
structure State where
  /-- The fixed parameters (R6); no operation writes them. -/
  cfg : Config
  /-- `MEM` (R14); `BGPAL`, `CTRL1` and `CTRL2` are bytes of it (R15 to R17). -/
  mem : Memory
  /-- `PAL` (R18). -/
  pal : Palette
  /-- `FONT` (R19). -/
  font : Font
  /-- `FB` (R20). -/
  fb : FrameBuffer
  /-- `KEYS` as it stands on the input (R113). -/
  keys : Keys
  /-- The driver loop or the Monitor's state (R121, R149). -/
  mode : Mode
  /-- The Monitor's line buffer (R121). -/
  line : List Byte
  /-- The file `DUMP_FILE`, if there is one (R129). -/
  dumpFile : Option (List Byte)
  /-- Whether the host can open `DUMP_FILE` now (R129). -/
  dumpOpens : Bool
  /-- What the operator has been shown, oldest first (R122, R141). -/
  console : List Message
  /-- The buffer last handed to the presentation layer (R106). -/
  displayed : Option FrameBuffer
  /-- The MODEL's own: the last returned value (log 7). -/
  reply : Reply
  /-- The MODEL's own: operations selected on their own, oldest first (log 6). -/
  calls : List Selection
  /-- The MODEL's own: what the external agents do at the coming moments, oldest first; when it is
  empty, what they do is a free value (log 5). -/
  inputs : List Moment
  /-- The MODEL's own: how many free values have been drawn (log 32). -/
  drawn : Nat
  deriving DecidableEq, Repr

/-- A frame buffer no pixel of which has been written (R20, R23). -/
def unspecifiedFrame : FrameBuffer := Vector.replicate 240 (Vector.replicate 256 none)

/-- The state right after a reset that leaves these tables (R23, R161): nothing drawn, the Monitor not
entered, no composition and no input latch performed. The values the spec does not give are DESIGN
CHOICE (log 24, log 32). -/
def State.afterReset (cfg : Config) (mem : Memory) (pal : Palette) (font : Font) : State where
  cfg := cfg
  mem := mem
  pal := pal
  font := font
  fb := unspecifiedFrame
  keys := Keys.released
  mode := .running
  line := []
  dumpFile := none
  dumpOpens := true
  console := []
  displayed := none
  reply := .none
  calls := []
  inputs := []
  drawn := 0

/-- The machine right after reset from the all-zero memory image under REFCFG, the spec's own `IMAGE
zero` (95_test_vectors.md T1). DESIGN CHOICE (log 1, log 2, log 3): a reset from any other launch is
the operation `RESET`. -/
def State.reset : State :=
  State.afterReset Config.reference [] (derivePalette Config.referenceFull) Config.referenceFont

end Sys2Proof.Machine
end

