-- ==== Sys2Proof/Machine/Ops.lean ====
section
/-! DEFINITION. The operations every meaning is built from: memory, frame buffer and blit engine, the two events, the host's messages. -/

namespace Sys2Proof.Machine

/-! ### Frame buffer and blit engine -/

namespace FrameBuffer

/-- `FB[y][x]` (R102); `none` is unspecified (U4). -/
def pixel (fb : FrameBuffer) (x : Fin 256) (y : Fin 240) : Option Colour := fb[y][x]

/-- `FbWrite(x, y, v)` (R101): clipped, the coordinates compared as plain integers. -/
def write (fb : FrameBuffer) (x y : Nat) (v : Colour) : FrameBuffer :=
  if h : x < 256 ∧ y < 240 then fb.set y ((fb[y]'h.2).set x (some v) h.1) h.2 else fb

/-- The buffer `FBCLR` leaves (R100). -/
def cleared : FrameBuffer := Vector.replicate 240 (Vector.replicate 256 (some Colour.black))

end FrameBuffer

/-- `PLUT(h, s)` (R77). -/
def paletteColour (pal : Palette) (h : Hue) (s : Shade) : Colour := pal[h][s]

/-- The source coordinate under a flip: `7 - k` if set, else `k` (R57, R103). -/
def mirrored (flip : Bool) (k : TileCoord) : TileCoord := if flip then Fin.rev k else k

/-- One pixel step of `BLIT` (R103): destination row `r`, column `c` inside the tile. -/
def blitPixel (pal : Palette) (b : Blit) (fb : FrameBuffer) (r c : TileCoord) : FrameBuffer :=
  let s := b.shades[mirrored b.vflip r][mirrored b.hflip c]
  if b.transparent0 && decide (s = 0) then fb
  else fb.write (b.ox.val + c.val) (b.oy.val + r.val) (paletteColour pal b.hue s)

/-- `BLIT` (R103): rows, then columns inside a row (D30). -/
def blitInto (pal : Palette) (b : Blit) (fb : FrameBuffer) : FrameBuffer :=
  (List.finRange 8).foldl (fun fb r =>
    (List.finRange 8).foldl (fun fb c => blitPixel pal b fb r c) fb) fb

namespace State

/-! ### Memory -/

/-- `MemRead(a, 1)` (R8). -/
def readByte (s : State) (a : Addr) : Byte := s.mem.read a.val

/-- `MemRead(a, n)`: n bytes in ascending address order (R8). -/
def readBytes (s : State) (a n : Nat) : List Byte := (List.range n).map fun j => s.mem.read (a + j)

/-- `MemRead(a, 16)` as a `TILE` record (R8, R51). -/
def readTile (s : State) (a : Nat) : Tile := Vector.ofFn fun j => s.mem.read (a + j.val)

/-- `MemWrite(a, 1, b)` (R8). -/
def writeByte (s : State) (a : Addr) (b : Byte) : State := { s with mem := s.mem.write a.val b }

/-- The stores of one CPU cycle, oldest first; any byte of `MEM` can be written (R5, R38). -/
def cpuStores (s : State) (ws : List (Addr × Byte)) : State :=
  { s with mem := ws.foldl (fun m w => m.write w.1.val w.2) s.mem }

/-- The frame buffer replaced, nothing else: the only way an operation writes `FB`. -/
def setFb (s : State) (fb : FrameBuffer) : State := { s with fb := fb }

/-! ### The events: entry and return (R142 to R146)

FrameSync's handler returns by itself, so its entry saves nothing and is its effect (`State.frameSync`
in Machine/Events.lean). Halt hands control to the Monitor. -/

/-- Entry of the Halt event: control goes to the Monitor's prompt. Nothing is saved and nothing else
changes (R145). -/
def enterMonitor (s : State) : State := { s with mode := .prompt }

/-- Return from the Monitor to the driver loop: nothing is restored because nothing was saved (R146). -/
def leaveMonitor (s : State) : State := { s with mode := .running }

/-- The process ends (R155, R165). -/
def endProcess (s : State) (e : Ending) : State := { s with mode := .ended e }

/-! ### Host and interfaces -/

/-- Messages shown to the operator (R8 `report`, R122). -/
def print (s : State) (ms : List Message) : State := { s with console := s.console ++ ms }

/-- An operation's returned value (log 7). -/
def withReply (s : State) (r : Reply) : State := { s with reply := r }

/-- The inputs as they stand at a moment: `KEYS` (R113) and whether the dump file can be opened. -/
def sense (s : State) (m : Moment) : State := { s with keys := m.keys, dumpOpens := m.dumpOpens }

/-- The hand-off: the buffer is given to the presentation layer (R106). -/
def present (s : State) : State := { s with displayed := some s.fb }

end State
end Sys2Proof.Machine
end

