-- ==== Sys2Proof/Machine/Operands.lean ====
section
/-! DEFINITION. Operand assembly: record addresses (20_memory.md R34), hues, shades and destinations (30_encoding.md R57). -/

namespace Sys2Proof.Machine

/-! ### Entry addresses (R34) -/

/-- Pattern `p` of a table: `base + 16 × p`. -/
def patternAddr (cfg : Config) (t : PatternTable) (p : Fin 32) : Nat :=
  match t with
  | .foreground => cfg.fgPtBase.val + 16 * p.val
  | .background => cfg.bgPtBase.val + 16 * p.val

/-- The nametable entry of cell `i`. -/
def nametableAddr (cfg : Config) (i : Cell) : Nat := cfg.ntBase.val + i.val

/-- The text entry of cell `i`. -/
def textAddr (cfg : Config) (i : Cell) : Nat := cfg.txtBase.val + i.val

/-- The object entry of slot `k`: `base + 4 × k`. -/
def objectAddr (cfg : Config) (k : ObjSlot) : Nat := cfg.objBase.val + 4 * k.val

/-! ### Shades -/

/-- `PDEC(P, r, c)` (R70): two bytes per row, the most significant pair leftmost (R73). -/
def patternShade (p : Tile) (r c : TileCoord) : Shade :=
  bits (p[2 * r.val + c.val / 4]'(by omega)) (6 - 2 * (c.val % 4)) 2

/-- `PDECT(P)` (R71). -/
def patternGrid (p : Tile) : Grid := Vector.ofFn fun r => Vector.ofFn fun c => patternShade p r c

/-- A glyph's shades: 3 where the pixel is on, else 0 (R95). -/
def glyphGrid (g : Glyph) : Grid :=
  Vector.ofFn fun r => Vector.ofFn fun c => if g[r][c] then 3 else 0

/-! ### Hues -/

/-- A 3-bit field of a byte that starts at bit `lsb`. -/
def hueField (b : Byte) (lsb : Fin 6) : Hue := bits b lsb.val 3

/-- `BGPAL.hue0` of a register byte (R15, R55). -/
def bgHue0 (cfg : Config) (b : Byte) : Hue := hueField b cfg.hue0Lsb

/-- `BGPAL.hue1` of a register byte (R15, R55). -/
def bgHue1 (cfg : Config) (b : Byte) : Hue := hueField b cfg.hue1Lsb

/-- The background hue: `hsel ? BGPAL.hue1 : BGPAL.hue0` (R57, R83). -/
def backgroundHue (cfg : Config) (bgpal : Byte) (e : Nte) : Hue :=
  if e.hsel then bgHue1 cfg bgpal else bgHue0 cfg bgpal

/-- The text hue: `tsel ? TEXT_HUE_SET : TEXT_HUE_CLEAR` (R57, R98). -/
def textHue (cfg : Config) (e : Txte) : Hue := if e.tsel then cfg.textHueSet else cfg.textHueClear

/-! ### Destinations -/

/-- The left edge of a cell: `8 × (i mod 32)` (R80). -/
def cellX (i : Cell) : Fin 256 := ⟨8 * (i.val % 32), by omega⟩

/-- The top edge of a cell: `8 × (i div 32)` (R80). -/
def cellY (i : Cell) : Fin 256 := ⟨8 * (i.val / 32), by omega⟩

/-! ### The blits of the three compositors -/

/-- The `BLIT` of `BGTILE` (R81): opaque, flipped as the entry says. -/
def backgroundBlit (s : State) (i : Cell) (e : Nte) : Blit where
  shades := patternGrid (s.readTile (patternAddr s.cfg .background e.pat))
  ox := cellX i
  oy := cellY i
  hue := backgroundHue s.cfg (s.readByte s.cfg.bgpalAddr) e
  hflip := e.hflip
  vflip := e.vflip
  transparent0 := false

/-- The `BLIT` of `OBJDRAW` (R87): shade 0 transparent, the pattern from the foreground table. -/
def objectBlit (s : State) (o : Obje) : Blit where
  shades := patternGrid (s.readTile (patternAddr s.cfg .foreground o.pat))
  ox := o.x
  oy := o.y
  hue := o.hue
  hflip := o.hflip
  vflip := o.vflip
  transparent0 := true

/-- The `BLIT` of `TXTCELL` (R96): shade 0 transparent, no flip. -/
def textBlit (s : State) (i : Cell) (e : Txte) : Blit where
  shades := glyphGrid s.font[e.glyph]
  ox := cellX i
  oy := cellY i
  hue := textHue s.cfg e
  hflip := false
  vflip := false
  transparent0 := true

/-! ### The records of the walkers, fetched and decoded -/

/-- The nametable entry of cell `i`, as `MEM` holds it now (R43, R81). -/
def State.nametableEntry (s : State) (i : Cell) : Nte :=
  Nte.ofByte (s.mem.read (nametableAddr s.cfg i))

/-- The object entry of slot `k`, four bytes at ascending addresses (R31, R87). -/
def State.objectEntry (s : State) (k : ObjSlot) : Obje :=
  let a := objectAddr s.cfg k
  Obje.ofBytes (s.mem.read a) (s.mem.read (a + 1)) (s.mem.read (a + 2)) (s.mem.read (a + 3))

/-- The text entry of cell `i` (R96). -/
def State.textEntry (s : State) (i : Cell) : Txte :=
  Txte.ofByte (s.mem.read (textAddr s.cfg i))

end Sys2Proof.Machine
end

