-- ==== Sys2Proof/Machine/Background.lean ====
section
/-! DEFINITION. The Background Compositor and its palette register (42_background_compositor.md, 30_encoding.md R55). -/

namespace Sys2Proof.Machine

/-- One background cell drawn into a buffer (R81). -/
def drawBackgroundCell (s : State) (i : Cell) (e : Nte) (fb : FrameBuffer) : FrameBuffer :=
  blitInto s.pal (backgroundBlit s i e) fb

/-- `BGTILE` (R81) on the entry fetched at cell `i`. -/
def execBgtile (i : Cell) (e : Nte) (s : State) : Host.Outcome State Fault Refusal :=
  .next (s.setFb (drawBackgroundCell s i e s.fb))

/-- The cells 0 to 959 drawn into a buffer, each entry fetched from `MEM` (R82). -/
def walkBackground (s : State) (fb : FrameBuffer) : FrameBuffer :=
  (List.finRange 960).foldl (fun fb i => drawBackgroundCell s i (s.nametableEntry i) fb) fb

/-- The whole background drawn (R82). -/
def State.drawBackground (s : State) : State := s.setFb (walkBackground s s.fb)

/-- `BGWALK` (R82). -/
def execBgwalk (s : State) : Host.Outcome State Fault Refusal :=
  .next s.drawBackground

/-- `BGPAL` (R55): the register is an operand of `BGTILE`; the row executes as reading the two hue
fields out of a register byte. DESIGN CHOICE (log 18). -/
def execBgpal (b : Byte) (s : State) : Host.Outcome State Fault Refusal :=
  .next (s.withReply (.hues (bgHue0 s.cfg b) (bgHue1 s.cfg b)))

end Sys2Proof.Machine
end

