-- ==== Sys2Proof/Machine/Object.lean ====
section
/-! DEFINITION. The Object Compositor (43_object_compositor.md). -/

namespace Sys2Proof.Machine

/-- One object drawn into a buffer (R87). -/
def drawObject (s : State) (o : Obje) (fb : FrameBuffer) : FrameBuffer :=
  blitInto s.pal (objectBlit s o) fb

/-- `OBJDRAW` (R87) on the entry fetched at slot `k`; the slot number only sets the draw order (R89). -/
def execObjdraw (_k : ObjSlot) (o : Obje) (s : State) : Host.Outcome State Fault Refusal :=
  .next (s.setFb (drawObject s o s.fb))

/-- The slots 63 down to 0 drawn into a buffer, each entry fetched from `MEM` (R88). -/
def walkObjects (s : State) (fb : FrameBuffer) : FrameBuffer :=
  (List.finRange 64).reverse.foldl (fun fb k => drawObject s (s.objectEntry k) fb) fb

/-- All objects drawn (R88). -/
def State.drawObjects (s : State) : State := s.setFb (walkObjects s s.fb)

/-- `OBJWALK` (R88). -/
def execObjwalk (s : State) : Host.Outcome State Fault Refusal :=
  .next s.drawObjects

end Sys2Proof.Machine
end

