-- ==== Sys2Proof/Machine/Text.lean ====
section
/-! DEFINITION. The Text Compositor and the Font Table (44_text_compositor.md). -/

namespace Sys2Proof.Machine

/-- One text cell drawn into a buffer (R96). -/
def drawTextCell (s : State) (i : Cell) (e : Txte) (fb : FrameBuffer) : FrameBuffer :=
  blitInto s.pal (textBlit s i e) fb

/-- `TXTCELL` (R96) on the entry fetched at cell `i`. -/
def execTxtcell (i : Cell) (e : Txte) (s : State) : Host.Outcome State Fault Refusal :=
  .next (s.setFb (drawTextCell s i e s.fb))

/-- The cells 0 to 959 drawn into a buffer, each entry fetched from `MEM` (R97). -/
def walkText (s : State) (fb : FrameBuffer) : FrameBuffer :=
  (List.finRange 960).foldl (fun fb i => drawTextCell s i (s.textEntry i) fb) fb

/-- The whole text layer drawn (R97). -/
def State.drawText (s : State) : State := s.setFb (walkText s s.fb)

/-- `TXTWALK` (R97). -/
def execTxtwalk (s : State) : Host.Outcome State Fault Refusal :=
  .next s.drawText

/-- `FINIT` (R99): the whole of `FONT`, nothing else. The pixels a too small image lacks are free, one
draw for the table (log 9). -/
def execFinit (img : FontImage) (s : State) : Host.Outcome State Fault Refusal :=
  .next { s with font := loadFont (Config.freeFontBit s.drawn) img, drawn := s.drawn + 1 }

end Sys2Proof.Machine
end

