-- ==== Sys2Proof/Machine/Frame.lean ====
section
/-! DEFINITION. The Frame Buffer, the blit engine and frame composition (45_framebuffer_and_frame.md). -/

namespace Sys2Proof.Machine

/-- `FBCLR` (R100). -/
def State.clearFrame (s : State) : State := s.setFb FrameBuffer.cleared

/-- `COMPOSE` (R104): clear, background, objects, text, hand-off, in that order (R105). -/
def State.compose (s : State) : State :=
  s.clearFrame.drawBackground.drawObjects.drawText.present

/-- `FBCLR` (R100). -/
def execFbclr (s : State) : Host.Outcome State Fault Refusal :=
  .next s.clearFrame

/-- `FBWR` (R101): at most one pixel, clipped. -/
def execFbwr (x y : Nat) (v : Colour) (s : State) : Host.Outcome State Fault Refusal :=
  .next (s.setFb (s.fb.write x y v))

/-- A free colour of the hardware's range: each channel in 0..`CH_MAX` (R20, log 4). -/
def freePixelColour (s : State) : Colour :=
  let c := Config.freeColour s.drawn
  ⟨c.r % 2 ^ s.cfg.chBits, c.g % 2 ^ s.cfg.chBits, c.b % 2 ^ s.cfg.chBits⟩

/-- `FBRD` (R102): the pixel is returned; one that nothing has written since reset has no specified
value, so a free colour is (U4, log 4). -/
def execFbrd (x : Fin 256) (y : Fin 240) (s : State) : Host.Outcome State Fault Refusal :=
  match s.fb.pixel x y with
  | some v => .next (s.withReply (.colour v))
  | none => .next { s.withReply (.colour (freePixelColour s)) with drawn := s.drawn + 1 }

/-- `BLIT` (R103). -/
def execBlit (b : Blit) (s : State) : Host.Outcome State Fault Refusal :=
  .next (s.setFb (blitInto s.pal b s.fb))

/-- `COMPOSE` (R104). -/
def execCompose (s : State) : Host.Outcome State Fault Refusal :=
  .next s.compose

end Sys2Proof.Machine
end

