-- ==== Sys2Proof/Machine/Input.lean ====
section
/-! DEFINITION. The Input Latch (46_input_latch.md). -/

namespace Sys2Proof.Machine

/-- `INLATCH` (R114): the whole byte of `CTRL1` replaced, nothing else (R116). -/
def State.latchKeys (s : State) : State := s.writeByte s.cfg.ctrl1Addr (ctrlByte s.keys)

/-- `INLATCH` (R114). -/
def execInlatch (s : State) : Host.Outcome State Fault Refusal :=
  .next s.latchKeys

end Sys2Proof.Machine
end

