-- ==== Sys2Proof/Machine/Events.lean ====
section
/-! DEFINITION. The two events and reset (60_exceptions.md R142 to R146, 70_reset_and_hazards.md R160 to R164). -/

namespace Sys2Proof.Machine

/-- Host-side pacing, the third step of a FrameSync's handling (R144). Whether and how long it sleeps, it
"changes no state of the block" (R150, R172, D28, log 20), and there is no cycle, time or instruction
counter and no compare register for it to write (R150). -/
def State.pace (s : State) : State := s

/-- Handling of the FrameSync event (R144): compose, then latch, then pace. -/
def State.frameSync (s : State) : State := s.compose.latchKeys.pace

/-- `FRAMESYNC` (R144). -/
def execFramesync (s : State) : Host.Outcome State Fault Refusal :=
  .next s.frameSync

/-- `HALT` (R145): the Monitor is entered; no composition, no latch. -/
def execHalt (s : State) : Host.Outcome State Fault Refusal :=
  .next s.enterMonitor

/-- The 65536 bytes an image file gives, or why the process cannot start (R135, R141). A longer file is
the host's choice (U7, log 10). -/
def loadImage (cfg : Config) : ImageFile → Except StartupError (List Byte)
  | .missingArgument => .error .missingArgument
  | .unreadable => .error .imageUnreadable
  | .contents bytes =>
    if bytes.length < 65536 then .error .imageUndersized
    else if bytes.length = 65536 then .ok bytes
    else if cfg.longImageAccepted then .ok (bytes.take 65536)
    else .error .imageOversized

/-- What a launch gives the reset sequence, or the fatal startup error (R141, R164). The order in which
several errors are diagnosed is a DESIGN CHOICE (log 11). -/
def launchInputs (cfg : Config) (l : Launch) : Except StartupError (List Byte × FontImage) :=
  match loadImage cfg l.image with
  | .error e => .error e
  | .ok bytes =>
    match l.font with
    | none => .error .fontUnreadable
    | some img => if l.presentation then .ok (bytes, img) else .error .presentationFailed

/-- `RESET` (R161): `MEM` from the image, `PINIT`, `FINIT`, `FB` unspecified; the environment's fields
stay (log 28). A launch with a fatal startup error ends the process and leaves the rest (R164, log 11). -/
def execReset (l : Launch) (s : State) : Host.Outcome State Fault Refusal :=
  match launchInputs s.cfg l with
  | .error e => .next ((s.print [.fatal e]).endProcess (.startup e))
  | .ok (bytes, img) =>
    .next { State.afterReset s.cfg (Memory.ofBytes 0 bytes) (derivePalette l.full)
              (loadFont (Config.freeFontBit s.drawn) img) with
            keys := s.keys, dumpFile := s.dumpFile, dumpOpens := s.dumpOpens,
            calls := s.calls, inputs := s.inputs, drawn := s.drawn + 1 }

end Sys2Proof.Machine
end

