-- ==== Sys2Proof/Machine/Monitor.lean ====
section
/-! DEFINITION. The Monitor's commands (47_monitor_host.md R120 to R134). -/

namespace Sys2Proof.Machine

/-- The step result that ends a stepping command (R126, R127). -/
def Mode.awaited : Mode → Option CpuResult
  | .executingStep => some .instructionBoundary
  | .executingFrame => some .frameSync
  | .running => none
  | .prompt => none
  | .ended _ => none

/-- A moment ends a stepping command when it brings the awaited result or the end of the process. -/
def endsCommand (want : CpuResult) (m : Moment) : Bool := m.close.isSome || decide (m.cpu.result = want)

/-- One turn of a stepping command's loop (R126, R127): one CPU cycle; on the awaited result one
`COMPOSE` without `INLATCH` (R109) and back to the prompt. Any other result is ignored (D35). -/
def State.commandCycle (s : State) (want : CpuResult) (m : Moment) : State :=
  match m.close with
  | some c => (s.sense m).endProcess (.closed c)
  | none =>
    let t := (s.sense m).cpuStores m.cpu.writes
    if m.cpu.result = want then t.compose.enterMonitor else t

/-- The loop of a stepping command over the queued moments; when they run out the command has not
returned, and the next steps go on with it (U5, log 16). -/
def commandLoop (want : CpuResult) : List Moment → State → State
  | [], s => { s with inputs := [] }
  | m :: rest, s =>
    let t := s.commandCycle want m
    if endsCommand want m then { t with inputs := rest } else commandLoop want rest t

/-- What `help` prints, and an unrecognized line too (R125, R133). -/
def State.showUsage (s : State) : State := (s.print [.usage]).enterMonitor

/-- `help` (R125). -/
def execHelp (s : State) : Host.Outcome State Fault Refusal :=
  .next s.showUsage

/-- `step` (R126): cycles up to an instruction boundary, then recomposes. -/
def execStep (s : State) : Host.Outcome State Fault Refusal :=
  .next (commandLoop .instructionBoundary s.inputs { s with mode := .executingStep })

/-- `frame` (R127): cycles up to a FrameSync result, then recomposes. -/
def execFrame (s : State) : Host.Outcome State Fault Refusal :=
  .next (commandLoop .frameSync s.inputs { s with mode := .executingFrame })

/-- The lines `peek` prints for the inclusive range `lo .. hi` below 65536 (R128); nothing when `hi < lo`
(U6). -/
def peekLines (m : Memory) (lo hi : Nat) : List Message :=
  (List.range' lo (hi + 1 - lo)).map fun a => .memoryByte (Fin.ofNat 65536 a) (m.read a)

/-- What `peek` answers to its operands (R128). A literal above 0xFFFF is a usage error (U6, log 15). -/
def peekMessages (m : Memory) : Option Nat → Option Nat → List Message
  | none, _ => [.missingOperand]
  | some lo, hi? =>
    let hi := hi?.getD lo
    if 65535 < lo ∨ 65535 < hi then [.operandTooLarge] else peekLines m lo hi

/-- `peek` (R128): nothing but messages. -/
def execPeek (lo hi : Option Nat) (s : State) : Host.Outcome State Fault Refusal :=
  .next (s.print (peekMessages s.mem lo hi)).enterMonitor

/-- `dump` (R129): all 65536 bytes to the host file, which is overwritten; a failure to open it is
reported and is not fatal. -/
def execDump (s : State) : Host.Outcome State Fault Refusal :=
  if s.dumpOpens then .next { s with dumpFile := some s.mem.toBytes }.enterMonitor
  else .next (s.print [.dumpOpenFailed]).enterMonitor

/-- `run` (R131): the Monitor returns to the driver loop. -/
def execRun (s : State) : Host.Outcome State Fault Refusal :=
  .next s.leaveMonitor

/-- `quit` (R132): Terminal(Quit), nothing saved. -/
def execQuit (s : State) : Host.Outcome State Fault Refusal :=
  .next (s.endProcess .quit)

end Sys2Proof.Machine
end

