-- ==== Sys2Proof/Machine/Palette.lean ====
section
/-! DEFINITION. The Palette Table (41_palette_lut.md). -/

namespace Sys2Proof.Machine

/-- `PINIT` (R75): all 32 entries of `PAL`, nothing else. -/
def execPinit (full : FullColours) (s : State) : Host.Outcome State Fault Refusal :=
  .next { s with pal := derivePalette full }

/-- `PLUT` (R77): the colour is returned, nothing else changes. -/
def execPlut (h : Hue) (sh : Shade) (s : State) : Host.Outcome State Fault Refusal :=
  .next (s.withReply (.colour (paletteColour s.pal h sh)))

end Sys2Proof.Machine
end

