-- ==== Sys2Proof/Machine/Pattern.lean ====
section
/-! DEFINITION. The Pattern Decoder (40_pattern_decoder.md). -/

namespace Sys2Proof.Machine

/-- `PDEC` (R70): the shade is returned, nothing else changes. -/
def execPdec (p : Tile) (r c : TileCoord) (s : State) : Host.Outcome State Fault Refusal :=
  .next (s.withReply (.shade (patternShade p r c)))

/-- `PDECT` (R71): the grid is returned, nothing else changes. -/
def execPdect (p : Tile) (s : State) : Host.Outcome State Fault Refusal :=
  .next (s.withReply (.grid (patternGrid p)))

end Sys2Proof.Machine
end

