-- ==== Sys2Proof/Machine/Dispatch.lean ====
section
/-! DEFINITION. One meaning per operation (30_encoding.md R58). -/

namespace Sys2Proof.Machine

def exec (i : Instr) (s : State) : Host.Outcome State Fault Refusal :=
  match i with
  | .pdec p r c => Sys2Proof.Machine.execPdec p r c s
  | .bgtile cell e => Sys2Proof.Machine.execBgtile cell e s
  | .objdraw k o => Sys2Proof.Machine.execObjdraw k o s
  | .txtcell cell e => Sys2Proof.Machine.execTxtcell cell e s
  | .bgpal b => Sys2Proof.Machine.execBgpal b s
  | .inlatch => Sys2Proof.Machine.execInlatch s
  | .pdect p => Sys2Proof.Machine.execPdect p s
  | .pinit full => Sys2Proof.Machine.execPinit full s
  | .plut h sh => Sys2Proof.Machine.execPlut h sh s
  | .bgwalk => Sys2Proof.Machine.execBgwalk s
  | .objwalk => Sys2Proof.Machine.execObjwalk s
  | .txtwalk => Sys2Proof.Machine.execTxtwalk s
  | .finit img => Sys2Proof.Machine.execFinit img s
  | .fbclr => Sys2Proof.Machine.execFbclr s
  | .fbwr x y v => Sys2Proof.Machine.execFbwr x y v s
  | .fbrd x y => Sys2Proof.Machine.execFbrd x y s
  | .blit b => Sys2Proof.Machine.execBlit b s
  | .compose => Sys2Proof.Machine.execCompose s
  | .framesync => Sys2Proof.Machine.execFramesync s
  | .halt => Sys2Proof.Machine.execHalt s
  | .reset l => Sys2Proof.Machine.execReset l s
  | .help => Sys2Proof.Machine.execHelp s
  | .step => Sys2Proof.Machine.execStep s
  | .frame => Sys2Proof.Machine.execFrame s
  | .peek lo hi => Sys2Proof.Machine.execPeek lo hi s
  | .dump => Sys2Proof.Machine.execDump s
  | .run => Sys2Proof.Machine.execRun s
  | .quit => Sys2Proof.Machine.execQuit s

end Sys2Proof.Machine
end

