-- ==== Sys2Proof/Machine/Driver.lean ====
section
/-! DEFINITION. What a step does around an operation: whose turn it is, the moment read from outside, the fetch of a selected record. -/

namespace Sys2Proof.Machine

/-- The next moment: the oldest queued one, or a free one (U10, D29, log 5). -/
def State.nextMoment (s : State) : Moment × State :=
  match s.inputs with
  | m :: rest => (m, { s with inputs := rest })
  | [] => (Config.freeMoment s.drawn, { s with drawn := s.drawn + 1 })

/-- The bytes at a selection's place, fetched anew from `MEM` (R34, R43) or from the line buffer. -/
def State.fetch (s : State) : Selection → List Byte
  | .pixel t p _ _ => (s.readTile (patternAddr s.cfg t p)).toList
  | .tile t p => (s.readTile (patternAddr s.cfg t p)).toList
  | .nametable i => s.readBytes (nametableAddr s.cfg i) 1
  | .object k => s.readBytes (objectAddr s.cfg k) 4
  | .text i => s.readBytes (textAddr s.cfg i) 1
  | .palette => [s.readByte s.cfg.bgpalAddr]
  | .event _ => []
  | .line => s.line
  | .call _ => []

/-- The bytes stored where a selection is fetched from; an event or a call has no bytes. -/
def State.place (s : State) (sel : Selection) (bs : List Byte) : State :=
  match sel with
  | .pixel t p _ _ => { s with mem := s.mem.writeBytes (patternAddr s.cfg t p) bs }
  | .tile t p => { s with mem := s.mem.writeBytes (patternAddr s.cfg t p) bs }
  | .nametable i => { s with mem := s.mem.writeBytes (nametableAddr s.cfg i) bs }
  | .object k => { s with mem := s.mem.writeBytes (objectAddr s.cfg k) bs }
  | .text i => { s with mem := s.mem.writeBytes (textAddr s.cfg i) bs }
  | .palette => { s with mem := s.mem.writeBytes s.cfg.bgpalAddr.val bs }
  | .event _ => s
  | .line => { s with line := bs }
  | .call _ => s

/-- What happens when a selection selects no operation: an unrecognized line prints the usage text
(R133); a step result Continuing or InstructionBoundary does nothing (R143). -/
def State.unselected (s : State) : Selection → State
  | .line => s.showUsage
  | .pixel _ _ _ _ => s
  | .tile _ _ => s
  | .nametable _ => s
  | .object _ => s
  | .text _ => s
  | .palette => s
  | .event _ => s
  | .call _ => s

/-- The prompt's display, then the operator's line read into the line buffer (R122). -/
def State.readLine (s : State) (m : Moment) : State :=
  { s.print [.cpuDisplay] with line := m.line }

/-- A selection takes its turn before anything else; a line is read at the prompt, and an ended process
takes no turn, so the mode is set for it. -/
def State.withCall (s : State) (sel : Selection) : State :=
  { s with
    calls := sel :: s.calls
    mode := match sel, s.mode with
      | .line, _ => .prompt
      | _, .ended _ => .running
      | _, m => m }

end Sys2Proof.Machine
end

