-- ==== Sys2Proof/Machine/Step.lean ====
section
/-! DEFINITION. One step of the machine: fetch what is selected, decode it, run it (30_encoding.md R58, 60_exceptions.md R143). -/

namespace Sys2Proof.Machine

/-- A selection runs: its bytes are fetched and decoded, and the operation they select is executed. -/
def select (sel : Selection) (s : State) : Host.Outcome State Fault Refusal :=
  match decode sel (s.fetch sel) with
  | some (i, _) => exec i s
  | none => .next (s.unselected sel)

/-- The turn of the agent the mode names, at a moment (R5, R143, R122): a signal that ends the process
comes first (R155, log 30). -/
def turn (m : Moment) (s : State) : Host.Outcome State Fault Refusal :=
  match s.mode with
  | .ended _ => .next s
  | .running =>
    match m.close with
    | some c => .next ((s.sense m).endProcess (.closed c))
    | none => select (.event m.cpu.result) ((s.sense m).cpuStores m.cpu.writes)
  | .prompt =>
    match m.close with
    | some c => .next (((s.sense m).print [.cpuDisplay]).endProcess (.closed c))
    | none => select .line ((s.sense m).readLine m)
  | .executingStep => .next (s.commandCycle .instructionBoundary m)
  | .executingFrame => .next (s.commandCycle .frameSync m)

/-- One step. An ended process stays as it is (log 12). An operation called on its own comes first
(log 6); else the agent whose turn it is acts on the next moment (log 5). The handling of an event is
one step (R37, R170). -/
def step (s : State) : Host.Outcome State Fault Refusal :=
  match s.mode, s.calls with
  | .ended _, _ => .next s
  | _, sel :: rest => select sel { s with calls := rest }
  | _, [] => turn s.nextMoment.1 s.nextMoment.2

/-- A table word stored where its selection is fetched from, and selected to run at the very next step
(log 19, log 23). -/
def State.withFetchWord (s : State) (nbits w : Nat) : State :=
  match tableSelection nbits w with
  | some (sel, bs) => (s.place sel bs).withCall sel
  | none => s

end Sys2Proof.Machine
end

