-- ==== Sys2Proof/Safety.lean ====
section
/-! DEFINITION. What a sound state of the block is: the terms the claims use. -/

namespace Sys2Proof.Machine

/-- The shade a blit has at a screen pixel: that of the source coordinate its flips name (R103); `none`
outside its 8 × 8 square. The destination `(ox + c, oy + r)` is not reduced (R57). -/
def blitShade (b : Blit) (x : Fin 256) (y : Fin 240) : Option Shade :=
  if h : (b.ox.val ≤ x.val ∧ x.val < b.ox.val + 8) ∧ (b.oy.val ≤ y.val ∧ y.val < b.oy.val + 8) then
    some b.shades[mirrored b.vflip ⟨y.val - b.oy.val, by omega⟩][mirrored b.hflip ⟨x.val - b.ox.val, by omega⟩]
  else none

/-- The colour a blit paints at a screen pixel; `none` where it leaves the pixel alone (R90, R103). -/
def blitColour (pal : Palette) (b : Blit) (x : Fin 256) (y : Fin 240) : Option Colour :=
  match blitShade b x y with
  | some s => if b.transparent0 && decide (s = 0) then none else some (paletteColour pal b.hue s)
  | none => none

/-- The cell that covers a screen pixel: `32 × (y div 8) + (x div 8)` (R104). -/
def cellAt (x : Fin 256) (y : Fin 240) : Cell := ⟨32 * (y.val / 8) + x.val / 8, by omega⟩

/-- What the background paints at a screen pixel (R81). -/
def backgroundColour (s : State) (x : Fin 256) (y : Fin 240) : Option Colour :=
  blitColour s.pal (backgroundBlit s (cellAt x y) (s.nametableEntry (cellAt x y))) x y

/-- What the objects paint at a screen pixel: the colour of the lowest slot that covers it with a
non-zero shade (R89). -/
def objectColour (s : State) (x : Fin 256) (y : Fin 240) : Option Colour :=
  (List.finRange 64).findSome? fun k => blitColour s.pal (objectBlit s (s.objectEntry k)) x y

/-- What the text layer paints at a screen pixel (R96). -/
def textColour (s : State) (x : Fin 256) (y : Fin 240) : Option Colour :=
  blitColour s.pal (textBlit s (cellAt x y) (s.textEntry (cellAt x y))) x y

/-- The full-brightness colours a palette shows: its shade 3 (R76 b). -/
def fullOf (pal : Palette) : FullColours := Vector.ofFn fun h => pal[h][(3 : Shade)]

/-- `PAL` is what `PINIT` makes of its own shade 3 (R75). -/
def PaletteLawful (pal : Palette) : Prop := pal = derivePalette (fullOf pal)

/-- Every channel of every entry lies in 0..`CH_MAX` (R18, R76 d). -/
def PaletteWithin (chMax : Nat) (pal : Palette) : Prop :=
  ∀ (h : Hue) (s : Shade), (paletteColour pal h s).within chMax = true

/-- Every pixel has a specified colour (R108). -/
def FrameSpecified (fb : FrameBuffer) : Prop := ∀ x y, (fb.pixel x y).isSome = true

/-- Every specified pixel holds an entry of `PAL` (R108). -/
def FrameFromPalette (pal : Palette) (fb : FrameBuffer) : Prop :=
  ∀ x y v, fb.pixel x y = some v → ∃ h s, v = paletteColour pal h s

/-- Before the first composition nothing is drawn and nothing shown; after it the buffer shown is the
buffer held, whole and made of palette colours (R20, R106, R108). -/
def FrameShown (s : State) : Prop :=
  match s.displayed with
  | none => s.fb = unspecifiedFrame
  | some d => d = s.fb ∧ FrameSpecified s.fb ∧ FrameFromPalette s.pal s.fb

/-- The invariant of a run in which the sequencer calls no operation on its own: the layout is legal,
memory is canonical, the palette is the one `PINIT` derives, and the frame is whole. -/
structure State.Inv (s : State) : Prop where
  layout : s.cfg.disjoint
  memory : s.mem.wf = true
  palette : PaletteLawful s.pal
  channels : PaletteWithin s.cfg.chMax s.pal
  frame : FrameShown s
  noCalls : s.calls = []

end Sys2Proof.Machine
end

