-- ==== Sys2Proof/Certificates/Slice0/Obligations.lean ====
section
/-! DEFINITION. The statements for the provers. Each docstring names the rule of spec/ it formalises. -/

open Sys2Proof Sys2Proof.Machine

/-! ### Encoding -/

/-- Decode and encode agree on every well-formed operation, every operand at every value (formats R50 to
R56, the operator's line R123, R128, R130). The letters' codes and the blank of an operand rest on log 13,
log 14 and the spec's decision D33. -/
def Obligations.DecodeEncodeRoundTrip : Prop :=
  ∀ (cfg : Config) (i : Instr), i.wellFormed cfg = true → decode (encode i).1 (encode i).2 = some (i, [])

/-- The bit positions of the one-byte and four-byte records, read off the bytes as numbers (R52, R53,
R54), and that exactly the record's bytes are taken (R50). The byte order and the sign of an object entry
are the spec's decisions D8 and D9. -/
def Obligations.RecordFieldsAreTheirBits : Prop :=
  (∀ (i : Cell) (b : Byte) (rest : List Byte), ∃ e : Nte,
    decode (.nametable i) (b :: rest) = some (.bgtile i e, rest) ∧
    e.hsel = decide (b.toNat / 128 % 2 = 1) ∧ e.hflip = decide (b.toNat / 64 % 2 = 1) ∧
    e.vflip = decide (b.toNat / 32 % 2 = 1) ∧ e.pat.val = b.toNat % 32) ∧
  (∀ (i : Cell) (b : Byte) (rest : List Byte), ∃ e : Txte,
    decode (.text i) (b :: rest) = some (.txtcell i e, rest) ∧
    e.tsel = decide (b.toNat / 128 % 2 = 1) ∧ e.glyph.val = b.toNat % 128) ∧
  (∀ (k : ObjSlot) (x y config color : Byte) (rest : List Byte), ∃ o : Obje,
    decode (.object k) (x :: y :: config :: color :: rest) = some (.objdraw k o, rest) ∧
    o.x.val = x.toNat ∧ o.y.val = y.toNat ∧ o.hflip = decide (config.toNat / 64 % 2 = 1) ∧
    o.vflip = decide (config.toNat / 32 % 2 = 1) ∧ o.pat.val = config.toNat % 32 ∧
    o.hue.val = color.toNat % 8)

/-- No record value is illegal: any bytes of a record's length decode (R61, R50), a `TILE` record to
exactly its sixteen bytes. -/
def Obligations.EveryRecordValueDecodes : Prop :=
  (∀ (t : PatternTable) (n : Fin 32) (r c : TileCoord) (p : Tile) (rest : List Byte),
    decode (.pixel t n r c) (p.toList ++ rest) = some (.pdec p r c, rest) ∧
    decode (.tile t n) (p.toList ++ rest) = some (.pdect p, rest)) ∧
  (∀ (i : Cell) (b : Byte) (rest : List Byte),
    (decode (.nametable i) (b :: rest)).isSome = true ∧ (decode (.text i) (b :: rest)).isSome = true ∧
    decode .palette (b :: rest) = some (.bgpal b, rest)) ∧
  (∀ (k : ObjSlot) (bs rest : List Byte), bs.length = 4 →
    (decode (.object k) (bs ++ rest)).isSome = true)

/-- The unnamed bits of an object entry and of `BGPAL` are ignored (R60). Two object entries that agree
in the named bits decode alike; two `BGPAL` bytes that agree below bit 6 give the same hues where the
fields stand at the spec's positions 0 and 3; and two memories that differ only in the unnamed bits, of
the byte at `BGPAL_ADDR` and of the 64 object entries, draw the same cells and compose the same frame.
That the bits are ignored is the spec's decision D10, the positions its decision D7; that the `BGPAL`
row of the second clause executes at all is the model's choice (log 18). -/
def Obligations.UnnamedBitsAreIgnored : Prop :=
  (∀ (k : ObjSlot) (x y c₁ c₂ h₁ h₂ : Byte) (rest : List Byte),
    c₁.toNat % 128 = c₂.toNat % 128 → h₁.toNat % 8 = h₂.toNat % 8 →
    decode (.object k) (x :: y :: c₁ :: h₁ :: rest) = decode (.object k) (x :: y :: c₂ :: h₂ :: rest)) ∧
  (∀ (s : State) (b₁ b₂ : Byte), s.cfg.hue0Lsb = 0 → s.cfg.hue1Lsb = 3 →
    b₁.toNat % 64 = b₂.toNat % 64 → ∃ t, exec (.bgpal b₁) s = .next t ∧ exec (.bgpal b₂) s = .next t) ∧
  (∀ s t : State, s.cfg.disjoint → s.cfg.hue0Lsb = 0 → s.cfg.hue1Lsb = 3 → t = { s with mem := t.mem } →
    (∀ a : Nat, a ≠ s.cfg.bgpalAddr.val →
      (∀ k : ObjSlot, a ≠ s.cfg.objBase.val + 4 * k.val + 2 ∧ a ≠ s.cfg.objBase.val + 4 * k.val + 3) →
      s.mem.read a = t.mem.read a) →
    (s.mem.read s.cfg.bgpalAddr.val).toNat % 64 = (t.mem.read s.cfg.bgpalAddr.val).toNat % 64 →
    (∀ k : ObjSlot,
      (s.mem.read (s.cfg.objBase.val + 4 * k.val + 2)).toNat % 128
        = (t.mem.read (s.cfg.objBase.val + 4 * k.val + 2)).toNat % 128 ∧
      (s.mem.read (s.cfg.objBase.val + 4 * k.val + 3)).toNat % 8
        = (t.mem.read (s.cfg.objBase.val + 4 * k.val + 3)).toNat % 8) →
    (∀ (i : Cell) (e : Nte), ∃ u v : State,
      exec (.bgtile i e) s = .next u ∧ exec (.bgtile i e) t = .next v ∧ u.fb = v.fb) ∧
    ∃ u v : State, exec .compose s = .next u ∧ exec .compose t = .next v ∧ u.fb = v.fb)

/-- A few words written out from the encodings of R52, R53, R54 and R124 decode to what they stand for.
The object entry rests on the spec's decisions D8 to D10; the line rests on its decision D33 for the
place of the operand, on log 13 for what a blank is and on log 14 for the characters' codes. -/
def Obligations.WrittenWordsDecode : Prop :=
  decode (.nametable 3) [0xE5] = some (.bgtile 3 ⟨true, true, true, 5⟩, []) ∧
  decode (.object 63) [0xFC, 0xEC, 0x83, 0xFF] = some (.objdraw 63 ⟨252, 236, false, false, 3, 7⟩, []) ∧
  decode (.text 1) [0xC1] = some (.txtcell 1 ⟨true, 0x41⟩, []) ∧
  decode .line [0x70, 0x20, 0x35] = some (.peek (some 5) none, [])

/-- The first character of an operator's line alone decides its command (R123, R124). Derived in R123 from
the seven words; the letters' codes are log 14. -/
def Obligations.FirstCharacterDecidesCommand : Prop :=
  classify [] = none ∧ ∀ (ch : Byte) (rest : List Byte), classify (ch :: rest) = classify [ch]

/-- A numeric literal is its digits in its base, and scanning stops at the first other character (R130):
`$` hexadecimal, `%` binary, no prefix decimal. That small letters count as digits is the spec's decision
D23; the characters' codes are log 14. -/
def Obligations.NumericLiteralIsItsDigits : Prop :=
  ∀ (base : Nat) (lead ds rest : List Byte),
    (base, lead) ∈ [(16, [(0x24 : Byte)]), (2, [(0x25 : Byte)]), (10, ([] : List Byte))] →
    ds ≠ [] → (∀ ch ∈ ds, (digitValue base ch).isSome = true) →
    (∀ ch ∈ rest.head?, digitValue base ch = none) →
    parseNum (lead ++ ds ++ rest)
      = (some (ds.foldl (fun v ch => v * base + (digitValue base ch).getD 0) 0), rest)

/-! ### Pattern Decoder and Palette Table -/

/-- `PDEC` returns the 2-bit pair the row and the column name and changes nothing else (R70). The
significance inside a pair is the spec's decision D11. -/
def Obligations.PdecReturnsBitPair : Prop :=
  ∀ (p : Tile) (r c : TileCoord) (s : State), ∃ sh : Shade,
    exec (.pdec p r c) s = .next (s.withReply (.shade sh)) ∧
    sh.val = (p[2 * r.val + c.val / 4]).toNat / 2 ^ (6 - 2 * (c.val % 4)) % 4

/-- `PDECT` returns the grid of all `PDEC` results, and is a bijection between records and grids (R71).
Derived in R71 from R70. -/
def Obligations.PdectIsBijection : Prop :=
  (∀ (p : Tile) (s : State), ∃ g : Grid, exec (.pdect p) s = .next (s.withReply (.grid g)) ∧
    ∀ r c : TileCoord, exec (.pdec p r c) s = .next (s.withReply (.shade g[r][c]))) ∧
  (∀ (p q : Tile) (s : State), exec (.pdect p) s = exec (.pdect q) s → p = q) ∧
  (∀ (g : Grid) (s : State), ∃ p : Tile, exec (.pdect p) s = .next (s.withReply (.grid g)))

/-- `PINIT` sets every entry of `PAL` to `(FULL[h] × s) div 3` per channel and nothing else (R75). That
the product comes before the division is the spec's decision D32 (90_conflicts.md C2). -/
def Obligations.PinitDerivesPalette : Prop :=
  ∀ (full : FullColours) (s : State), ∃ t : State,
    exec (.pinit full) s = .next t ∧ t = { s with pal := t.pal } ∧
    ∀ (h : Hue) (sh : Shade), paletteColour t.pal h sh
      = ⟨full[h].r * sh.val / 3, full[h].g * sh.val / 3, full[h].b * sh.val / 3⟩

/-- The four palette invariants (R76): shade 0 black, shade 3 the full colour, channels rising with the
shade, channels in range. The last two are derived in R76 from R75. -/
def Obligations.PaletteInvariants : Prop :=
  ∀ (full : FullColours) (chMax : Nat) (s : State), full.within chMax = true → ∃ t : State,
    exec (.pinit full) s = .next t ∧
    ∀ h : Hue, paletteColour t.pal h 0 = ⟨0, 0, 0⟩ ∧ paletteColour t.pal h 3 = full[h] ∧
      (∀ a b : Shade, a ≤ b →
        (paletteColour t.pal h a).r ≤ (paletteColour t.pal h b).r ∧
        (paletteColour t.pal h a).g ≤ (paletteColour t.pal h b).g ∧
        (paletteColour t.pal h a).b ≤ (paletteColour t.pal h b).b) ∧
      ∀ a : Shade, (paletteColour t.pal h a).within chMax = true

/-- `PLUT` returns `PAL[h][s]` and changes nothing else (R77). -/
def Obligations.PlutLooksColourUp : Prop :=
  ∀ (h : Hue) (sh : Shade) (s : State),
    exec (.plut h sh) s = .next (s.withReply (.colour s.pal[h][sh]))

/-- `PAL` and `FONT` change at reset only (R78, R171): no CPU store, no event and no Monitor command
changes them, since no step does that is not a call of an operation, and of the operations only `PINIT`
and `RESET` write the one, only `FINIT` and `RESET` the other. -/
def Obligations.TablesChangeOnlyAtReset : Prop :=
  (∀ s t : State, s.calls = [] → step s = .next t → t.pal = s.pal ∧ t.font = s.font) ∧
  ∀ (i : Instr) (s t : State), exec i s = .next t → (∀ l, i ≠ .reset l) →
    ((∀ full, i ≠ .pinit full) → t.pal = s.pal) ∧ ((∀ img, i ≠ .finit img) → t.font = s.font)

/-! ### Background Compositor -/

/-- The 960 cells are disjoint squares that cover every pixel once (R80): cell i has its left edge at 8
× (i mod 32) and its top edge at 8 × (i div 32); every pixel lies in exactly one cell's square, the one
`cellAt` names, and of all the cells only that one's `BGTILE` draws it. The grid's width is the spec's
decision D3. -/
def Obligations.CellsTileTheScreen : Prop :=
  (∀ i : Cell, (cellX i).val = 8 * (i.val % 32) ∧ (cellY i).val = 8 * (i.val / 32)) ∧
  ∀ (x : Fin 256) (y : Fin 240), ∃ i : Cell, cellAt x y = i ∧
    ((cellX i).val ≤ x.val ∧ x.val ≤ (cellX i).val + 7 ∧ (cellY i).val ≤ y.val ∧ y.val ≤ (cellY i).val + 7) ∧
    (∀ j : Cell, (cellX j).val ≤ x.val → x.val ≤ (cellX j).val + 7 → (cellY j).val ≤ y.val →
      y.val ≤ (cellY j).val + 7 → j = i) ∧
    ∀ (j : Cell) (e : Nte) (s : State), ∃ t : State, exec (.bgtile j e) s = .next t ∧
      (j = i → ∃ (h : Hue) (sh : Shade), t.fb.pixel x y = some (paletteColour s.pal h sh)) ∧
      (j ≠ i → t.fb.pixel x y = s.fb.pixel x y)

/-- The records are fetched at the addresses of R34, by a selection and by the walkers alike, and no
computed address leaves its region. Derived in R34; the grid's width is the spec's decision D3, the
order of an object entry's bytes its decision D8. -/
def Obligations.RecordAddressesStayInRegions : Prop :=
  ∀ s : State,
    (∀ p : Fin 32, patternAddr s.cfg .foreground p = s.cfg.fgPtBase.val + 16 * p.val ∧
      16 * p.val + 15 < 512 ∧ s.cfg.fgPtBase.val + 511 < 65536) ∧
    (∀ p : Fin 32, patternAddr s.cfg .background p = s.cfg.bgPtBase.val + 16 * p.val ∧
      16 * p.val + 15 < 512 ∧ s.cfg.bgPtBase.val + 511 < 65536) ∧
    (∀ (col : Fin 32) (row : Fin 30) (i : Cell), i.val = 32 * row.val + col.val →
      s.fetch (.nametable i) = [s.mem.read (s.cfg.ntBase.val + 32 * row.val + col.val)] ∧
      s.fetch (.text i) = [s.mem.read (s.cfg.txtBase.val + 32 * row.val + col.val)] ∧
      s.cfg.ntBase.val + i.val ≤ s.cfg.ntBase.val + 959 ∧ s.cfg.ntBase.val + 959 < 65536 ∧
      s.cfg.txtBase.val + i.val ≤ s.cfg.txtBase.val + 959 ∧ s.cfg.txtBase.val + 959 < 65536) ∧
    (∀ k : ObjSlot, s.fetch (.object k) =
      [s.mem.read (s.cfg.objBase.val + 4 * k.val), s.mem.read (s.cfg.objBase.val + 4 * k.val + 1),
       s.mem.read (s.cfg.objBase.val + 4 * k.val + 2), s.mem.read (s.cfg.objBase.val + 4 * k.val + 3)] ∧
      4 * k.val + 3 < 256 ∧ s.cfg.objBase.val + 255 < 65536) ∧
    (∀ i : Cell, s.nametableEntry i = Nte.ofByte (s.mem.read (s.cfg.ntBase.val + i.val)) ∧
      s.textEntry i = Txte.ofByte (s.mem.read (s.cfg.txtBase.val + i.val))) ∧
    (∀ k : ObjSlot, s.objectEntry k = Obje.ofBytes
      (s.mem.read (s.cfg.objBase.val + 4 * k.val)) (s.mem.read (s.cfg.objBase.val + 4 * k.val + 1))
      (s.mem.read (s.cfg.objBase.val + 4 * k.val + 2)) (s.mem.read (s.cfg.objBase.val + 4 * k.val + 3))) ∧
    (∀ (t : PatternTable) (p : Fin 32) (j : Fin 16),
      (s.fetch (.tile t p))[j.val]? = some (s.mem.read (patternAddr s.cfg t p + j.val)))

/-- `BGTILE` draws its whole cell, opaque, through the hue `BGPAL` and the entry select, the source pixel
mirrored by the flips, and changes nothing else (R81). The grid, the pair's significance and the axes of
the flips are the spec's decisions D3, D11 and D12. -/
def Obligations.BgtileDrawsItsCell : Prop :=
  ∀ (i : Cell) (e : Nte) (s : State), ∃ t : State,
    exec (.bgtile i e) s = .next t ∧ t = s.setFb t.fb ∧
    (∀ (x : Fin 256) (y : Fin 240), cellAt x y ≠ i → t.fb.pixel x y = s.fb.pixel x y) ∧
    ∀ (x : Fin 256) (y : Fin 240) (r c : TileCoord),
      x.val = 8 * (i.val % 32) + c.val → y.val = 8 * (i.val / 32) + r.val →
      let bgpal := s.mem.read s.cfg.bgpalAddr.val
      let hue := hueField bgpal (if e.hsel = true then s.cfg.hue1Lsb else s.cfg.hue0Lsb)
      let pattern := s.readTile (s.cfg.bgPtBase.val + 16 * e.pat.val)
      let sr : TileCoord := if e.vflip = true then 7 - r else r
      let sc : TileCoord := if e.hflip = true then 7 - c else c
      t.fb.pixel x y = some (paletteColour s.pal hue (patternShade pattern sr sc))

/-- `BGWALK` writes every pixel: each shows what the background entry of its cell paints there (R82, R84),
and nothing else changes. The grid's width is the spec's decision D3. -/
def Obligations.BgwalkPaintsEveryPixel : Prop :=
  ∀ s : State, ∃ t : State, exec .bgwalk s = .next t ∧ t = s.setFb t.fb ∧
    ∀ x y, (t.fb.pixel x y).isSome = true ∧ t.fb.pixel x y = backgroundColour s x y

/-- The `BGPAL` row executes as a read of the register's two 3-bit hues, hue0 in bits 2:0 and hue1 in bits
5:3 under the spec's positions (R55, R15). That the row executes at all is the model's choice (log 18). -/
def Obligations.BgpalReadsTwoHues : Prop :=
  ∀ (b : Byte) (s : State), ∃ h₀ h₁ : Hue,
    exec (.bgpal b) s = .next (s.withReply (.hues h₀ h₁)) ∧
    h₀.val = b.toNat / 2 ^ s.cfg.hue0Lsb.val % 8 ∧ h₁.val = b.toNat / 2 ^ s.cfg.hue1Lsb.val % 8

/-! ### Object Compositor -/

/-- `OBJDRAW` writes the pixels of its square whose source shade is not 0 and that lie inside the buffer,
with no wrap-around, and changes nothing else (R87, R90, R91). The unsigned positions, the pair's
significance and the axes of the flips are the spec's decisions D9, D11 and D12. -/
def Obligations.ObjdrawSkipsShadeZeroAndClips : Prop :=
  ∀ (k : ObjSlot) (o : Obje) (s : State), ∃ t : State,
    exec (.objdraw k o) s = .next t ∧ t = s.setFb t.fb ∧
    (∀ (x : Fin 256) (y : Fin 240),
      ¬(o.x.val ≤ x.val ∧ x.val ≤ o.x.val + 7 ∧ o.y.val ≤ y.val ∧ y.val ≤ o.y.val + 7) →
      t.fb.pixel x y = s.fb.pixel x y) ∧
    ∀ (x : Fin 256) (y : Fin 240) (r c : TileCoord), x.val = o.x.val + c.val → y.val = o.y.val + r.val →
      let pattern := s.readTile (s.cfg.fgPtBase.val + 16 * o.pat.val)
      let sr : TileCoord := if o.vflip = true then 7 - r else r
      let sc : TileCoord := if o.hflip = true then 7 - c else c
      let sh := patternShade pattern sr sc
      t.fb.pixel x y = if sh = 0 then s.fb.pixel x y else some (paletteColour s.pal o.hue sh)

/-- An object parked at `y >= 240` draws nothing (R87, R92). The buffer's height is the spec's decision
D4. -/
def Obligations.ParkedObjectDrawsNothing : Prop :=
  ∀ (k : ObjSlot) (o : Obje) (s : State), 240 ≤ o.y.val → exec (.objdraw k o) s = .next s

/-- Object priority (R89): after `OBJWALK` a pixel shows the lowest slot that covers it with a non-zero
shade, or what was there if none does. The general form is derived in R89. -/
def Obligations.LowestSlotWins : Prop :=
  ∀ s : State, ∃ t : State, exec .objwalk s = .next t ∧ t = s.setFb t.fb ∧
    ∀ (x : Fin 256) (y : Fin 240),
      let paints := fun k : ObjSlot => blitColour s.pal (objectBlit s (s.objectEntry k)) x y
      (∀ (i : ObjSlot) (v : Colour), paints i = some v → (∀ j : ObjSlot, j < i → paints j = none) →
        t.fb.pixel x y = some v) ∧
      ((∀ i : ObjSlot, paints i = none) → t.fb.pixel x y = s.fb.pixel x y)

/-! ### Text Compositor and Font Table -/

/-- `TXTCELL` writes the on pixels of its glyph in shade 3 of the hue bit 7 selects, and changes nothing
else (R96, R98). The grid's width is the spec's decision D3. -/
def Obligations.TxtcellDrawsOnPixels : Prop :=
  ∀ (i : Cell) (e : Txte) (s : State), ∃ t : State,
    exec (.txtcell i e) s = .next t ∧ t = s.setFb t.fb ∧
    (∀ (x : Fin 256) (y : Fin 240), cellAt x y ≠ i → t.fb.pixel x y = s.fb.pixel x y) ∧
    ∀ (x : Fin 256) (y : Fin 240) (r c : TileCoord),
      x.val = 8 * (i.val % 32) + c.val → y.val = 8 * (i.val / 32) + r.val →
      t.fb.pixel x y = if s.font[e.glyph][r][c] = true then
          some (paletteColour s.pal (if e.tsel = true then s.cfg.textHueSet else s.cfg.textHueClear) 3)
        else s.fb.pixel x y

/-- `TXTWALK` overlays the whole text layer: a pixel whose cell's glyph is on there takes the text colour,
every other pixel stays (R97). The grid's width is the spec's decision D3. -/
def Obligations.TxtwalkOverlaysText : Prop :=
  ∀ s : State, ∃ t : State, exec .txtwalk s = .next t ∧ t = s.setFb t.fb ∧
    ∀ (x : Fin 256) (y : Fin 240) (r c : TileCoord) (e : Txte),
      x.val % 8 = c.val → y.val % 8 = r.val →
      e = Txte.ofByte (s.mem.read (s.cfg.txtBase.val + 32 * (y.val / 8) + x.val / 8)) →
      t.fb.pixel x y = if s.font[e.glyph][r][c] = true then
          some (paletteColour s.pal (if e.tsel = true then s.cfg.textHueSet else s.cfg.textHueClear) 3)
        else s.fb.pixel x y

/-- `FINIT` fills `FONT` from the 8 × 8 blocks of a complete image, row-major across its width; a bit is
on only for a pure white pixel (R99). The count of blocks per image row is derived in R99; the drawn
counter is the model's (log 9). -/
def Obligations.FinitScansBlocks : Prop :=
  ∀ (img : FontImage) (s : State), img.complete = true → ∃ t : State,
    exec (.finit img) s = .next t ∧ t = { s with font := t.font, drawn := s.drawn + 1 } ∧
    ∀ (g : Fin 128) (r c : TileCoord), ∃ p : Colour,
      imagePixel img (8 * (g.val / (img.width / 8)) + r.val) (8 * (g.val % (img.width / 8)) + c.val) = some p ∧
      (t.font[g][r][c] = true ↔ p.r = img.chMax ∧ p.g = img.chMax ∧ p.b = img.chMax)

/-! ### Frame Buffer, blit engine and composition -/

/-- `FBCLR` makes every pixel black and changes nothing else (R100). -/
def Obligations.FbclrBlackensEveryPixel : Prop :=
  ∀ s : State, ∃ t : State, exec .fbclr s = .next t ∧ t = s.setFb t.fb ∧
    ∀ x y, t.fb.pixel x y = some ⟨0, 0, 0⟩

/-- `FbWrite` writes exactly the pixel it names, and nothing when the coordinates, as plain integers, lie
outside the buffer (R101). The buffer's size and the plain comparison are the spec's decisions D4 and D9. -/
def Obligations.FbwrWritesOnePixelOrNone : Prop :=
  ∀ (px py : Nat) (v : Colour) (s : State), ∃ t : State,
    exec (.fbwr px py v) s = .next t ∧ t = s.setFb t.fb ∧
    (∀ (x : Fin 256) (y : Fin 240), x.val = px → y.val = py → t.fb.pixel x y = some v) ∧
    (∀ (x : Fin 256) (y : Fin 240), x.val ≠ px ∨ y.val ≠ py → t.fb.pixel x y = s.fb.pixel x y) ∧
    (256 ≤ px ∨ 240 ≤ py → t = s)

/-- `FbRead` returns the pixel and changes nothing else (R102). A pixel that nothing has written since
reset has no specified value: some colour of the hardware's range is returned (R20, U4; the free value
is the model's, log 4). -/
def Obligations.FbrdReturnsPixel : Prop :=
  ∀ (x : Fin 256) (y : Fin 240) (s : State),
    (∀ v, s.fb.pixel x y = some v → exec (.fbrd x y) s = .next (s.withReply (.colour v))) ∧
    (s.fb.pixel x y = none → ∃ v : Colour, v.within s.cfg.chMax = true ∧
      exec (.fbrd x y) s = .next { s.withReply (.colour v) with drawn := s.drawn + 1 })

/-- `BLIT` paints destination `(ox + c, oy + r)` from the mirrored source pixel, skips shade 0 when the
layer is transparent, is clipped, and leaves every other pixel and the rest of the state alone (R103). The
axes of the flips are the spec's decision D12. -/
def Obligations.BlitCopiesMirroredTile : Prop :=
  ∀ (b : Blit) (s : State), ∃ t : State,
    exec (.blit b) s = .next t ∧ t = s.setFb t.fb ∧
    (∀ (x : Fin 256) (y : Fin 240),
      ¬(b.ox.val ≤ x.val ∧ x.val ≤ b.ox.val + 7 ∧ b.oy.val ≤ y.val ∧ y.val ≤ b.oy.val + 7) →
      t.fb.pixel x y = s.fb.pixel x y) ∧
    ∀ (x : Fin 256) (y : Fin 240) (r c : TileCoord), x.val = b.ox.val + c.val → y.val = b.oy.val + r.val →
      let sr : TileCoord := if b.vflip = true then 7 - r else r
      let sc : TileCoord := if b.hflip = true then 7 - c else c
      let sh := b.shades[sr][sc]
      t.fb.pixel x y = if b.transparent0 = true ∧ sh = 0 then s.fb.pixel x y
        else some (paletteColour s.pal b.hue sh)

/-- `COMPOSE` (R104, R105): every pixel shows the text colour if its cell's glyph is on there, else the
lowest object that covers it with a non-zero shade, else the background; the buffer is handed over and
nothing else changes. The formula for a pixel is derived in R104 and R89; that the hand-off is the field
`displayed` is the model's choice (log 31). -/
def Obligations.ComposePaintsTextThenObjectThenBackground : Prop :=
  ∀ s : State, ∃ t : State, exec .compose s = .next t ∧
    t = { s with fb := t.fb, displayed := some t.fb } ∧
    ∀ x y, t.fb.pixel x y = match textColour s x y with
      | some v => some v
      | none => match objectColour s x y with
        | some v => some v
        | none => backgroundColour s x y

/-- After any `COMPOSE` every pixel holds an entry of `PAL` (R108). Derived in R108. -/
def Obligations.ComposedPixelsArePaletteEntries : Prop :=
  ∀ s : State, ∃ t : State, exec .compose s = .next t ∧
    ∀ (x : Fin 256) (y : Fin 240), ∃ (h : Hue) (sh : Shade), t.fb.pixel x y = some (paletteColour s.pal h sh)

/-- The picture is a function of the six video regions, `PAL` and `FONT` (R35, R104): two states that
agree there compose the same frame, whatever else their memories hold. -/
def Obligations.PictureDependsOnVideoRegionsOnly : Prop :=
  ∀ s t : State, s.cfg = t.cfg → s.pal = t.pal → s.font = t.font →
    (∀ (a : Nat) (region : Nat × Nat), region ∈ s.cfg.regions.take 6 →
      region.1 ≤ a → a < region.1 + region.2 → s.mem.read a = t.mem.read a) →
    ∃ u v : State, exec .compose s = .next u ∧ exec .compose t = .next v ∧ u.fb = v.fb

/-! ### Input Latch -/

/-- `INLATCH` replaces the whole byte at `CTRL1_ADDR` by one bit per key that is down, and changes no
other byte and nothing else (R114). The polarity and the full-byte store are the spec's decisions D14 and
D19. -/
def Obligations.InlatchStoresOneBitPerKey : Prop :=
  ∀ s : State, ∃ t : State, exec .inlatch s = .next t ∧ t = { s with mem := t.mem } ∧
    (∀ a : Addr, a ≠ s.cfg.ctrl1Addr → t.mem.read a.val = s.mem.read a.val) ∧
    (s.mem.wf = true → (t.mem.read s.cfg.ctrl1Addr.val).toNat =
      128 * s.keys.a.toNat + 64 * s.keys.b.toNat + 32 * s.keys.select.toNat + 16 * s.keys.start.toNat
        + 8 * s.keys.up.toNat + 4 * s.keys.down.toNat + 2 * s.keys.left.toNat + s.keys.right.toNat)

/-- The eight masks are fixed single bits and the packing is a bijection between key combinations and
bytes (R115); software's decoding of the byte (R56) is its inverse. That a key that is down gives a 1 is
the spec's decision D14; the bijection is derived in R115. -/
def Obligations.CtrlByteIsBijection : Prop :=
  ctrlByte { Keys.released with a := true } = 0x80 ∧ ctrlByte { Keys.released with b := true } = 0x40 ∧
  ctrlByte { Keys.released with start := true } = 0x10 ∧
  ctrlByte { Keys.released with select := true } = 0x20 ∧
  ctrlByte { Keys.released with up := true } = 0x08 ∧ ctrlByte { Keys.released with down := true } = 0x04 ∧
  ctrlByte { Keys.released with left := true } = 0x02 ∧ ctrlByte { Keys.released with right := true } = 0x01 ∧
  (∀ k : Keys, Keys.ofByte (ctrlByte k) = k) ∧ ∀ b : Byte, ctrlByte (Keys.ofByte b) = b

/-- The second controller register is never touched by the latch or by a whole frame-sync handling
(R116). -/
def Obligations.SecondControllerNeverTouched : Prop :=
  ∀ (s : State) (i : Instr), s.cfg.disjoint → i ∈ [Instr.inlatch, Instr.framesync] →
    ∃ t : State, exec i s = .next t ∧
      t.mem.read s.cfg.ctrl2Addr.val = s.mem.read s.cfg.ctrl2Addr.val

/-- Whether the latch runs before or after the composition of the same event cannot change the picture
(R117). The order itself is the spec's decision D25. -/
def Obligations.LatchOrderCannotChangePicture : Prop :=
  ∀ s : State, s.cfg.disjoint → ∃ u v w : State,
    exec .compose s = .next u ∧ exec .inlatch s = .next v ∧ exec .compose v = .next w ∧ w.fb = u.fb

/-! ### Events, the driver loop and reset -/

/-- `FRAMESYNC` composes, then latches, then paces (R144). Pacing changes no state, no counter among it
(R150, decision D28, log 20), so nothing changes but the frame, the hand-off and the byte at
`CTRL1_ADDR`. The order is the spec's decision D25. -/
def Obligations.FramesyncComposesThenLatches : Prop :=
  ∀ s : State, ∃ u v t : State, exec .compose s = .next u ∧ exec .inlatch u = .next v ∧ v.pace = t ∧
    exec .framesync s = .next t ∧ t = v ∧
    t = { s with fb := u.fb, displayed := some u.fb, mem := t.mem } ∧
    ∀ a : Addr, a ≠ s.cfg.ctrl1Addr → t.mem.read a.val = s.mem.read a.val

/-- `HALT` hands control to the Monitor and changes nothing else: no composition, no latch (R145). That
nothing else happens is the spec's decision D26. -/
def Obligations.HaltOnlyEntersMonitor : Prop :=
  ∀ s : State, exec .halt s = .next { s with mode := .prompt }

/-- The driver loop's dispatch on the CPU's step result (R143), after the cycle's stores (R40 a), on any
moment, queued or free. The keys and the dump file's availability are the inputs of the moment. The
moment and its order are the model's (log 5, log 25). -/
def Obligations.DriverDispatchesStepResult : Prop :=
  ∀ (s s₁ : State) (m : Moment), s.mode = .running → s.calls = [] → s.nextMoment = (m, s₁) → m.close = none →
    ∃ u : State, u = { s₁ with
        keys := m.keys, dumpOpens := m.dumpOpens,
        mem := m.cpu.writes.foldl (fun mem w => mem.write w.1.val w.2) s₁.mem } ∧
      step s = match m.cpu.result with
        | .continuing => .next u
        | .instructionBoundary => .next u
        | .frameSync => exec .framesync u
        | .halt => exec .halt u

/-- A step runs the decoded operation: of a selection that stands by itself, and of the operator's line
at the prompt, after the prompt's display (R122). The moment of a step is the oldest queued one, or a
free one where none is queued. The queues and the free moment are the model's (log 5, log 6). -/
def Obligations.StepRunsDecodedOperation : Prop :=
  (∀ (s : State) (sel : Selection) (rest : List Selection) (i : Instr) (bs : List Byte),
    (∀ e, s.mode ≠ .ended e) → s.calls = sel :: rest → decode sel (s.fetch sel) = some (i, bs) →
    step s = exec i { s with calls := rest }) ∧
  (∀ (s s₁ : State) (m : Moment) (i : Instr) (bs : List Byte),
    s.mode = .prompt → s.calls = [] → s.nextMoment = (m, s₁) → m.close = none →
    decode .line m.line = some (i, bs) →
    step s = exec i { s₁ with
      keys := m.keys, dumpOpens := m.dumpOpens,
      console := s₁.console ++ [.cpuDisplay], line := m.line }) ∧
  (∀ (s : State) (m : Moment) (rest : List Moment), s.inputs = m :: rest →
    s.nextMoment = (m, { s with inputs := rest })) ∧
  (∀ s : State, s.inputs = [] →
    s.nextMoment = (Config.freeMoment s.drawn, { s with drawn := s.drawn + 1 }))

/-- A table word placed by `withFetchWord` is what the next step runs (the model's reading of the table,
log 19). -/
def Obligations.PlacedTableWordRunsNext : Prop :=
  ∀ (s : State) (nbits w : Nat) (i : Instr), s.mem.wf = true → decodeTableWord nbits w = some i →
    ∃ u : State, step (s.withFetchWord nbits w) = exec i u ∧ u.calls = s.calls ∧ u.cfg = s.cfg ∧
      u.fb = s.fb ∧ u.pal = s.pal

/-- No step ever faults or is refused: every step of every state gives a next state (R140). -/
def Obligations.EveryStepGivesNextState : Prop :=
  ∀ s : State, ∃ t : State, step s = .next t

/-- The end of the process is final: Terminal(Quit), a close signal and a failed start are never left,
and a close signal ends the process at the turn that brings it, with memory and frame as they are (R121,
R155). That an ended process is held as a state is the model's choice (log 12), and so are the moment,
queued or free (log 5), and that the signal is seen before the agent's turn, so that the CPU cycle of
its moment does not happen (log 30). -/
def Obligations.EndOfProcessIsFinal : Prop :=
  (∀ (s : State) (e : Ending), s.mode = .ended e → step s = .next s) ∧
  (∀ (s s₁ : State) (m : Moment) (c : CloseSignal),
    (∀ e, s.mode ≠ .ended e) → s.calls = [] → s.nextMoment = (m, s₁) → m.close = some c →
    step s = .next { s₁ with
      mode := .ended (.closed c), keys := m.keys, dumpOpens := m.dumpOpens,
      console := if s.mode = .prompt then s₁.console ++ [.cpuDisplay] else s₁.console })

/-- Between two FrameSync results the display and the frame stay, whatever the program writes (R41,
R166), on any moment, queued or free. The moment is the model's (log 5). -/
def Obligations.DisplayStaysBetweenFrameSyncs : Prop :=
  ∀ (s s₁ : State) (m : Moment), s.mode = .running → s.calls = [] →
    s.nextMoment = (m, s₁) → m.cpu.result ≠ .frameSync →
    ∃ t : State, step s = .next t ∧ t.displayed = s.displayed ∧ t.fb = s.fb

/-- `RESET` from a complete launch: `MEM` is the image byte for byte, `PAL` and `FONT` are what `PINIT`
and `FINIT` make, no pixel has a specified value, nothing is composed or latched (R161, R162). That
nothing is composed or latched is the spec's decision D17. That the environment's fields `keys`,
`dumpFile`, `dumpOpens`, `calls` and `inputs` stay and that one free value is drawn is log 28; that
`line`, `console` and `reply` are a new process's is log 24 and log 28. -/
def Obligations.ResetLoadsImageAndTables : Prop :=
  ∀ (l : Launch) (bytes : List Byte) (img : FontImage) (s : State),
    l.image = .contents bytes → bytes.length = 65536 → l.font = some img → l.presentation = true →
    ∃ t u v : State, exec (.reset l) s = .next t ∧ exec (.pinit l.full) s = .next u ∧
      exec (.finit img) s = .next v ∧ t.pal = u.pal ∧ t.font = v.font ∧
      (∀ a : Fin 65536, some (t.mem.read a.val) = bytes[a.val]?) ∧ t.mem.wf = true ∧
      (∀ x y, t.fb.pixel x y = none) ∧ t.displayed = none ∧ t.mode = .running ∧ t.cfg = s.cfg ∧
      t.keys = s.keys ∧ t.calls = s.calls ∧ t.inputs = s.inputs ∧ t.dumpFile = s.dumpFile ∧
      t.dumpOpens = s.dumpOpens ∧ t.drawn = s.drawn + 1 ∧ t.line = [] ∧ t.console = [] ∧ t.reply = .none

/-- A failed start: a missing, unreadable or short image, an unreadable font asset or a presentation layer
that does not initialise ends the process before the block runs; memory, tables and frame stay and no
later step changes them (R141, R164). What stays, and which error is named, is the model's choice (log
11). -/
def Obligations.FailedStartNeverRuns : Prop :=
  ∀ (l : Launch) (s : State),
    (l.image = .missingArgument ∨ l.image = .unreadable ∨
      (∃ bytes, l.image = .contents bytes ∧ bytes.length < 65536) ∨ l.font = none ∨
      l.presentation = false) →
    ∃ (e : StartupError) (t : State), exec (.reset l) s = .next t ∧
      t = { s with mode := .ended (.startup e), console := s.console ++ [.fatal e] } ∧ step t = .next t

/-- A memory image of more than 65536 bytes: the host's choice of U7 is a parameter (log 10). Where it
is accepted the launch is that of its first 65536 bytes, where not the start fails as oversized. That
this error is named even where the font or the presentation layer fails too, and that the rest of the
state stays, is the model's choice (log 11). -/
def Obligations.LongImageIsCutOrRejected : Prop :=
  ∀ (l : Launch) (bytes : List Byte) (s : State), l.image = .contents bytes → 65536 < bytes.length →
    (s.cfg.longImageAccepted = true → ∃ t : State, exec (.reset l) s = .next t ∧
      exec (.reset { l with image := .contents (bytes.take 65536) }) s = .next t) ∧
    (s.cfg.longImageAccepted = false → exec (.reset l) s = .next { s with
      mode := .ended (.startup .imageOversized), console := s.console ++ [.fatal .imageOversized] })

/-! ### The Monitor -/

/-- `help` prints the usage text, `run` returns to the driver loop, `quit` ends the process; each changes
nothing else (R125, R131, R132). -/
def Obligations.HelpRunQuitOnlyControl : Prop :=
  ∀ s : State,
    exec .help s = .next { s with console := s.console ++ [.usage], mode := .prompt } ∧
    exec .run s = .next { s with mode := .running } ∧
    exec .quit s = .next { s with mode := .ended .quit }

/-- An unrecognized line re-prints the help text and the loop continues, with no other effect (R133), on
any moment, queued or free. What the moment brings and where it is kept is the model's (log 5), the
messages' form too (log 8). -/
def Obligations.UnrecognizedLineShowsUsage : Prop :=
  ∀ (s s₁ : State) (m : Moment), s.mode = .prompt → s.calls = [] →
    s.nextMoment = (m, s₁) → m.close = none → classify m.line = none →
    step s = .next { s₁ with
      keys := m.keys, dumpOpens := m.dumpOpens, line := m.line,
      console := s₁.console ++ [.cpuDisplay, .usage] }

/-- `step` and `frame` (R126, R127): the CPU is cycled up to the first awaited result, every other result
ignored; then one composition of the memory its stores leave, no latch; back to the prompt; nothing else
changes. That other results are ignored and that nothing is latched are the spec's decisions D35 and D18;
the moments are the model's (log 5, log 16). -/
def Obligations.SteppingCommandsCycleThenCompose : Prop :=
  ∀ (s : State) (i : Instr) (want : CpuResult) (before rest : List Moment) (last : Moment),
    (i, want) ∈ [(Instr.step, CpuResult.instructionBoundary), (Instr.frame, CpuResult.frameSync)] →
    s.inputs = before ++ last :: rest →
    (∀ m ∈ before, m.close = none ∧ m.cpu.result ≠ want) → last.close = none → last.cpu.result = want →
    ∃ u v t : State,
      u = { s with mem := ((before ++ [last]).flatMap fun m => m.cpu.writes).foldl
                      (fun mem w => mem.write w.1.val w.2) s.mem } ∧
      exec .compose u = .next v ∧ exec i s = .next t ∧
      t = { s with
        mem := u.mem, fb := v.fb, displayed := some v.fb, mode := .prompt,
        keys := last.keys, dumpOpens := last.dumpOpens, inputs := rest }

/-- A stepping command whose awaited result has not come (R121, R126, R127, U5). If no queued cycle
brings it, the Monitor stays in Executing-Step or Executing-Frame, the inputs stand as the last moment
left them and only the CPU's stores have happened. A step in that state runs one more cycle, on a queued
or a free moment, and on the awaited result composes once without a latch and returns to the prompt. A
close signal that comes first ends the process, with the stores of the cycles before it. That other
results are ignored and that nothing is latched are the spec's decisions D35 and D18; the waiting and
the moments are the model's (log 5, log 16, log 25), and so is when the signal is seen (log 12, log 30). -/
def Obligations.SteppingCommandWaitsForResult : Prop :=
  ∀ (i : Instr) (want : CpuResult) (m' : Mode),
    (i, want, m') ∈ [(Instr.step, CpuResult.instructionBoundary, Mode.executingStep),
      (Instr.frame, CpuResult.frameSync, Mode.executingFrame)] →
    (∀ s : State, (∀ m ∈ s.inputs, m.close = none ∧ m.cpu.result ≠ want) →
      exec i s = .next { s with
        mode := m', inputs := [],
        keys := (s.inputs.getLast?.map Moment.keys).getD s.keys,
        dumpOpens := (s.inputs.getLast?.map Moment.dumpOpens).getD s.dumpOpens,
        mem := (s.inputs.flatMap fun m => m.cpu.writes).foldl (fun mem w => mem.write w.1.val w.2) s.mem }) ∧
    (∀ (s s₁ : State) (m : Moment), s.mode = m' → s.calls = [] → s.nextMoment = (m, s₁) → m.close = none →
      ∃ u v : State,
        u = { s₁ with
          keys := m.keys, dumpOpens := m.dumpOpens,
          mem := m.cpu.writes.foldl (fun mem w => mem.write w.1.val w.2) s₁.mem } ∧
        exec .compose u = .next v ∧
        (m.cpu.result ≠ want → step s = .next u) ∧
        (m.cpu.result = want →
          step s = .next { u with fb := v.fb, displayed := some v.fb, mode := .prompt })) ∧
    (∀ (s : State) (before rest : List Moment) (last : Moment) (c : CloseSignal),
      s.inputs = before ++ last :: rest → (∀ m ∈ before, m.close = none ∧ m.cpu.result ≠ want) →
      last.close = some c →
      exec i s = .next { s with
        mode := .ended (.closed c), inputs := rest, keys := last.keys, dumpOpens := last.dumpOpens,
        mem := (before.flatMap fun m => m.cpu.writes).foldl (fun mem w => mem.write w.1.val w.2) s.mem })

/-- Under `step` and `frame` no key is sampled: a byte that the CPU does not store to, `CTRL1` among them,
keeps its value (R109, R117, R168). This rests on the spec's decision D18. -/
def Obligations.MonitorNeverLatchesKeys : Prop :=
  ∀ (s : State) (i : Instr) (a : Addr), i ∈ [Instr.step, Instr.frame] →
    (∀ m ∈ s.inputs, ∀ w ∈ m.cpu.writes, w.1 ≠ a) →
    ∃ t : State, exec i s = .next t ∧ t.mem.read a.val = s.mem.read a.val

/-- `peek` prints one line per address of the inclusive range, one address when there is no second
literal, a report when there is none, and changes nothing but the console (R128). The lines' form is the
model's (log 8). -/
def Obligations.PeekPrintsInclusiveRange : Prop :=
  ∀ s : State,
    (∀ lo hi : Nat, lo ≤ hi → hi < 65536 → ∃ ms : List Message,
      exec (.peek (some lo) (some hi)) s
        = .next { s with console := s.console ++ ms, mode := .prompt } ∧
      ms.length = hi - lo + 1 ∧
      ∀ (k : Nat) (a : Addr), lo + k ≤ hi → a.val = lo + k →
        ms[k]? = some (.memoryByte a (s.mem.read a.val))) ∧
    (∀ a : Addr, exec (.peek (some a.val) none) s
      = .next { s with console := s.console ++ [.memoryByte a (s.mem.read a.val)], mode := .prompt }) ∧
    (∀ hi, exec (.peek none hi) s
      = .next { s with console := s.console ++ [.missingOperand], mode := .prompt })

/-- The cases of `peek` that the source leaves to the host, as U6 recommends (log 15): an address above
0xFFFF is reported and nothing is printed, a range that runs backwards prints nothing. -/
def Obligations.PeekOpenCasesPrintNoByte : Prop :=
  ∀ (lo : Nat) (s : State),
    (∀ hi : Option Nat, 65535 < lo ∨ 65535 < hi.getD lo → exec (.peek (some lo) hi) s
      = .next { s with console := s.console ++ [.operandTooLarge], mode := .prompt }) ∧
    (∀ hi : Nat, hi < lo → lo ≤ 65535 → exec (.peek (some lo) (some hi)) s = .next { s with mode := .prompt })

/-- `dump` writes all 65536 bytes in ascending address order to the file, overwriting it; a failure to
open it is reported; nothing else changes (R129). The availability of the file is an input (log 24). -/
def Obligations.DumpWritesWholeMemory : Prop :=
  ∀ s : State,
    (s.dumpOpens = true → ∃ file : List Byte,
      exec .dump s = .next { s with dumpFile := some file, mode := .prompt } ∧ file.length = 65536 ∧
      ∀ a : Addr, file[a.val]? = some (s.mem.read a.val)) ∧
    (s.dumpOpens = false →
      exec .dump s = .next { s with console := s.console ++ [.dumpOpenFailed], mode := .prompt })

/-- A dump "can be loaded as one": a reset from the dumped file gives the same memory (R129, R135). -/
def Obligations.DumpedFileReloads : Prop :=
  ∀ (s : State) (full : FullColours) (img : FontImage), s.mem.wf = true → s.dumpOpens = true →
    ∃ (t u : State) (file : List Byte), exec .dump s = .next t ∧ t.dumpFile = some file ∧
      exec (.reset ⟨.contents file, full, some img, true⟩) t = .next u ∧ u.mem = s.mem

/-! ### Whole-machine rules and the invariant -/

/-- "The block writes no other byte of `MEM`, ever" (R35): but for the image load of `RESET` and the CPU
cycles that `step` and `frame` run, no operation changes a byte other than `CTRL1`'s; and only
`INLATCH` and `FRAMESYNC` change that one. -/
def Obligations.BlockWritesOnlyCtrl1 : Prop :=
  ∀ (i : Instr) (s t : State), exec i s = .next t → (∀ l, i ≠ .reset l) → i ≠ .step → i ≠ .frame →
    (∀ a : Addr, a ≠ s.cfg.ctrl1Addr → t.mem.read a.val = s.mem.read a.val) ∧
    (i ≠ .inlatch → i ≠ .framesync → t.mem = s.mem)

/-- Every operation keeps `MEM` in canonical form. The form is the model's own (Memory.wf); the rules are
R14 and R36. -/
def Obligations.ExecKeepsMemoryCanonical : Prop :=
  ∀ (i : Instr) (s t : State), s.mem.wf = true → exec i s = .next t → t.mem.wf = true

/-- No operation changes the fixed parameters (R160). -/
def Obligations.ParametersNeverChange : Prop :=
  ∀ s t : State, step s = .next t → t.cfg = s.cfg

/-- The state after reset meets the invariant (REFCFG and the all-zero image are the model's choice,
log 1, log 2). -/
def Obligations.ResetStateMeetsInvariant : Prop := State.Inv State.reset

/-- Every step keeps the invariant: legal layout, canonical memory, the palette `PINIT` derives with its
channels in range, and the buffer either never composed or whole, made of palette entries and equal to
what is shown (R20, R76, R78, R106, R108). -/
def Obligations.StepKeepsInvariant : Prop :=
  ∀ s t : State, s.Inv → step s = .next t → t.Inv
end

