-- ==== Sys2Proof/Laws/Decode.lean ====
section
/-! SUPPORT. Small lemmas about the decoder: what a `TILE` record's bytes give back, and which operations are called. -/

namespace Sys2Proof

/-- Sixteen bytes in front of any others are taken as the record they make (R51). -/
theorem takeTile_append (p : Tile) (rest : List Byte) : takeTile (p.toList ++ rest) = some (p, rest) := by
  unfold takeTile
  rw [dif_pos (by simp)]
  congr 1
  refine Prod.ext ?_ ?_
  · refine Vector.toList_inj.mp ?_
    simp
  · simp

/-- A call selects exactly the operations that no bits select (R64). -/
theorem decode_call (i : Instr) (bs : List Byte) (h : i.calledOnly = true) :
    decode (.call i) bs = some (i, bs) := by
  simp only [decode, h, if_true]

/-- The value of a bit of a byte, read off the byte as a number (R7). -/
theorem bit_eq (b : Byte) (i : Nat) : bit b i = decide (b.toNat / 2 ^ i % 2 = 1) := by
  unfold bit
  rw [← BitVec.testBit_toNat, Nat.testBit_eq_decide_div_mod_eq]

/-- The value of a field of a byte, read off the byte as a number (R7). -/
theorem bits_val (b : Byte) (lo w : Nat) : (bits b lo w).val = b.toNat / 2 ^ lo % 2 ^ w := by
  unfold bits
  simp only [BitVec.val_toFin, BitVec.extractLsb'_toNat, Nat.shiftRight_eq_div_pow]

end Sys2Proof
end

