-- ==== Sys2Proof/Laws/State.lean ====
section
/-! SUPPORT. One lemma per field of State and per update of it: what the update leaves there. -/

namespace Sys2Proof.Machine.State

@[simp] theorem writeByte_cfg (s : State) (a : Addr) (b : Byte) : (s.writeByte a b).cfg = s.cfg := rfl
@[simp] theorem writeByte_mem (s : State) (a : Addr) (b : Byte) :
    (s.writeByte a b).mem = s.mem.write a.val b :=
  rfl
@[simp] theorem writeByte_pal (s : State) (a : Addr) (b : Byte) : (s.writeByte a b).pal = s.pal := rfl
@[simp] theorem writeByte_font (s : State) (a : Addr) (b : Byte) : (s.writeByte a b).font = s.font := rfl
@[simp] theorem writeByte_fb (s : State) (a : Addr) (b : Byte) : (s.writeByte a b).fb = s.fb := rfl
@[simp] theorem writeByte_keys (s : State) (a : Addr) (b : Byte) : (s.writeByte a b).keys = s.keys := rfl
@[simp] theorem writeByte_mode (s : State) (a : Addr) (b : Byte) : (s.writeByte a b).mode = s.mode := rfl
@[simp] theorem writeByte_line (s : State) (a : Addr) (b : Byte) : (s.writeByte a b).line = s.line := rfl
@[simp] theorem writeByte_dumpFile (s : State) (a : Addr) (b : Byte) :
    (s.writeByte a b).dumpFile = s.dumpFile :=
  rfl
@[simp] theorem writeByte_dumpOpens (s : State) (a : Addr) (b : Byte) :
    (s.writeByte a b).dumpOpens = s.dumpOpens :=
  rfl
@[simp] theorem writeByte_console (s : State) (a : Addr) (b : Byte) :
    (s.writeByte a b).console = s.console :=
  rfl
@[simp] theorem writeByte_displayed (s : State) (a : Addr) (b : Byte) :
    (s.writeByte a b).displayed = s.displayed :=
  rfl
@[simp] theorem writeByte_reply (s : State) (a : Addr) (b : Byte) : (s.writeByte a b).reply = s.reply := rfl
@[simp] theorem writeByte_calls (s : State) (a : Addr) (b : Byte) : (s.writeByte a b).calls = s.calls := rfl
@[simp] theorem writeByte_inputs (s : State) (a : Addr) (b : Byte) :
    (s.writeByte a b).inputs = s.inputs :=
  rfl
@[simp] theorem writeByte_drawn (s : State) (a : Addr) (b : Byte) : (s.writeByte a b).drawn = s.drawn := rfl

@[simp] theorem cpuStores_cfg (s : State) (ws : List (Addr × Byte)) : (s.cpuStores ws).cfg = s.cfg := rfl
@[simp] theorem cpuStores_mem (s : State) (ws : List (Addr × Byte)) :
    (s.cpuStores ws).mem = ws.foldl (fun m w => m.write w.1.val w.2) s.mem :=
  rfl
@[simp] theorem cpuStores_pal (s : State) (ws : List (Addr × Byte)) : (s.cpuStores ws).pal = s.pal := rfl
@[simp] theorem cpuStores_font (s : State) (ws : List (Addr × Byte)) : (s.cpuStores ws).font = s.font := rfl
@[simp] theorem cpuStores_fb (s : State) (ws : List (Addr × Byte)) : (s.cpuStores ws).fb = s.fb := rfl
@[simp] theorem cpuStores_keys (s : State) (ws : List (Addr × Byte)) : (s.cpuStores ws).keys = s.keys := rfl
@[simp] theorem cpuStores_mode (s : State) (ws : List (Addr × Byte)) : (s.cpuStores ws).mode = s.mode := rfl
@[simp] theorem cpuStores_line (s : State) (ws : List (Addr × Byte)) : (s.cpuStores ws).line = s.line := rfl
@[simp] theorem cpuStores_dumpFile (s : State) (ws : List (Addr × Byte)) :
    (s.cpuStores ws).dumpFile = s.dumpFile :=
  rfl
@[simp] theorem cpuStores_dumpOpens (s : State) (ws : List (Addr × Byte)) :
    (s.cpuStores ws).dumpOpens = s.dumpOpens :=
  rfl
@[simp] theorem cpuStores_console (s : State) (ws : List (Addr × Byte)) :
    (s.cpuStores ws).console = s.console :=
  rfl
@[simp] theorem cpuStores_displayed (s : State) (ws : List (Addr × Byte)) :
    (s.cpuStores ws).displayed = s.displayed :=
  rfl
@[simp] theorem cpuStores_reply (s : State) (ws : List (Addr × Byte)) :
    (s.cpuStores ws).reply = s.reply :=
  rfl
@[simp] theorem cpuStores_calls (s : State) (ws : List (Addr × Byte)) :
    (s.cpuStores ws).calls = s.calls :=
  rfl
@[simp] theorem cpuStores_inputs (s : State) (ws : List (Addr × Byte)) :
    (s.cpuStores ws).inputs = s.inputs :=
  rfl
@[simp] theorem cpuStores_drawn (s : State) (ws : List (Addr × Byte)) :
    (s.cpuStores ws).drawn = s.drawn :=
  rfl

@[simp] theorem setFb_cfg (s : State) (fb : FrameBuffer) : (s.setFb fb).cfg = s.cfg := rfl
@[simp] theorem setFb_mem (s : State) (fb : FrameBuffer) : (s.setFb fb).mem = s.mem := rfl
@[simp] theorem setFb_pal (s : State) (fb : FrameBuffer) : (s.setFb fb).pal = s.pal := rfl
@[simp] theorem setFb_font (s : State) (fb : FrameBuffer) : (s.setFb fb).font = s.font := rfl
@[simp] theorem setFb_fb (s : State) (fb : FrameBuffer) : (s.setFb fb).fb = fb := rfl
@[simp] theorem setFb_keys (s : State) (fb : FrameBuffer) : (s.setFb fb).keys = s.keys := rfl
@[simp] theorem setFb_mode (s : State) (fb : FrameBuffer) : (s.setFb fb).mode = s.mode := rfl
@[simp] theorem setFb_line (s : State) (fb : FrameBuffer) : (s.setFb fb).line = s.line := rfl
@[simp] theorem setFb_dumpFile (s : State) (fb : FrameBuffer) : (s.setFb fb).dumpFile = s.dumpFile := rfl
@[simp] theorem setFb_dumpOpens (s : State) (fb : FrameBuffer) : (s.setFb fb).dumpOpens = s.dumpOpens := rfl
@[simp] theorem setFb_console (s : State) (fb : FrameBuffer) : (s.setFb fb).console = s.console := rfl
@[simp] theorem setFb_displayed (s : State) (fb : FrameBuffer) : (s.setFb fb).displayed = s.displayed := rfl
@[simp] theorem setFb_reply (s : State) (fb : FrameBuffer) : (s.setFb fb).reply = s.reply := rfl
@[simp] theorem setFb_calls (s : State) (fb : FrameBuffer) : (s.setFb fb).calls = s.calls := rfl
@[simp] theorem setFb_inputs (s : State) (fb : FrameBuffer) : (s.setFb fb).inputs = s.inputs := rfl
@[simp] theorem setFb_drawn (s : State) (fb : FrameBuffer) : (s.setFb fb).drawn = s.drawn := rfl

@[simp] theorem enterMonitor_cfg (s : State) : s.enterMonitor.cfg = s.cfg := rfl
@[simp] theorem enterMonitor_mem (s : State) : s.enterMonitor.mem = s.mem := rfl
@[simp] theorem enterMonitor_pal (s : State) : s.enterMonitor.pal = s.pal := rfl
@[simp] theorem enterMonitor_font (s : State) : s.enterMonitor.font = s.font := rfl
@[simp] theorem enterMonitor_fb (s : State) : s.enterMonitor.fb = s.fb := rfl
@[simp] theorem enterMonitor_keys (s : State) : s.enterMonitor.keys = s.keys := rfl
@[simp] theorem enterMonitor_mode (s : State) : s.enterMonitor.mode = .prompt := rfl
@[simp] theorem enterMonitor_line (s : State) : s.enterMonitor.line = s.line := rfl
@[simp] theorem enterMonitor_dumpFile (s : State) : s.enterMonitor.dumpFile = s.dumpFile := rfl
@[simp] theorem enterMonitor_dumpOpens (s : State) : s.enterMonitor.dumpOpens = s.dumpOpens := rfl
@[simp] theorem enterMonitor_console (s : State) : s.enterMonitor.console = s.console := rfl
@[simp] theorem enterMonitor_displayed (s : State) : s.enterMonitor.displayed = s.displayed := rfl
@[simp] theorem enterMonitor_reply (s : State) : s.enterMonitor.reply = s.reply := rfl
@[simp] theorem enterMonitor_calls (s : State) : s.enterMonitor.calls = s.calls := rfl
@[simp] theorem enterMonitor_inputs (s : State) : s.enterMonitor.inputs = s.inputs := rfl
@[simp] theorem enterMonitor_drawn (s : State) : s.enterMonitor.drawn = s.drawn := rfl

@[simp] theorem leaveMonitor_cfg (s : State) : s.leaveMonitor.cfg = s.cfg := rfl
@[simp] theorem leaveMonitor_mem (s : State) : s.leaveMonitor.mem = s.mem := rfl
@[simp] theorem leaveMonitor_pal (s : State) : s.leaveMonitor.pal = s.pal := rfl
@[simp] theorem leaveMonitor_font (s : State) : s.leaveMonitor.font = s.font := rfl
@[simp] theorem leaveMonitor_fb (s : State) : s.leaveMonitor.fb = s.fb := rfl
@[simp] theorem leaveMonitor_keys (s : State) : s.leaveMonitor.keys = s.keys := rfl
@[simp] theorem leaveMonitor_mode (s : State) : s.leaveMonitor.mode = .running := rfl
@[simp] theorem leaveMonitor_line (s : State) : s.leaveMonitor.line = s.line := rfl
@[simp] theorem leaveMonitor_dumpFile (s : State) : s.leaveMonitor.dumpFile = s.dumpFile := rfl
@[simp] theorem leaveMonitor_dumpOpens (s : State) : s.leaveMonitor.dumpOpens = s.dumpOpens := rfl
@[simp] theorem leaveMonitor_console (s : State) : s.leaveMonitor.console = s.console := rfl
@[simp] theorem leaveMonitor_displayed (s : State) : s.leaveMonitor.displayed = s.displayed := rfl
@[simp] theorem leaveMonitor_reply (s : State) : s.leaveMonitor.reply = s.reply := rfl
@[simp] theorem leaveMonitor_calls (s : State) : s.leaveMonitor.calls = s.calls := rfl
@[simp] theorem leaveMonitor_inputs (s : State) : s.leaveMonitor.inputs = s.inputs := rfl
@[simp] theorem leaveMonitor_drawn (s : State) : s.leaveMonitor.drawn = s.drawn := rfl

@[simp] theorem endProcess_cfg (s : State) (e : Ending) : (s.endProcess e).cfg = s.cfg := rfl
@[simp] theorem endProcess_mem (s : State) (e : Ending) : (s.endProcess e).mem = s.mem := rfl
@[simp] theorem endProcess_pal (s : State) (e : Ending) : (s.endProcess e).pal = s.pal := rfl
@[simp] theorem endProcess_font (s : State) (e : Ending) : (s.endProcess e).font = s.font := rfl
@[simp] theorem endProcess_fb (s : State) (e : Ending) : (s.endProcess e).fb = s.fb := rfl
@[simp] theorem endProcess_keys (s : State) (e : Ending) : (s.endProcess e).keys = s.keys := rfl
@[simp] theorem endProcess_mode (s : State) (e : Ending) : (s.endProcess e).mode = .ended e := rfl
@[simp] theorem endProcess_line (s : State) (e : Ending) : (s.endProcess e).line = s.line := rfl
@[simp] theorem endProcess_dumpFile (s : State) (e : Ending) : (s.endProcess e).dumpFile = s.dumpFile := rfl
@[simp] theorem endProcess_dumpOpens (s : State) (e : Ending) :
    (s.endProcess e).dumpOpens = s.dumpOpens :=
  rfl
@[simp] theorem endProcess_console (s : State) (e : Ending) : (s.endProcess e).console = s.console := rfl
@[simp] theorem endProcess_displayed (s : State) (e : Ending) :
    (s.endProcess e).displayed = s.displayed :=
  rfl
@[simp] theorem endProcess_reply (s : State) (e : Ending) : (s.endProcess e).reply = s.reply := rfl
@[simp] theorem endProcess_calls (s : State) (e : Ending) : (s.endProcess e).calls = s.calls := rfl
@[simp] theorem endProcess_inputs (s : State) (e : Ending) : (s.endProcess e).inputs = s.inputs := rfl
@[simp] theorem endProcess_drawn (s : State) (e : Ending) : (s.endProcess e).drawn = s.drawn := rfl

@[simp] theorem print_cfg (s : State) (ms : List Message) : (s.print ms).cfg = s.cfg := rfl
@[simp] theorem print_mem (s : State) (ms : List Message) : (s.print ms).mem = s.mem := rfl
@[simp] theorem print_pal (s : State) (ms : List Message) : (s.print ms).pal = s.pal := rfl
@[simp] theorem print_font (s : State) (ms : List Message) : (s.print ms).font = s.font := rfl
@[simp] theorem print_fb (s : State) (ms : List Message) : (s.print ms).fb = s.fb := rfl
@[simp] theorem print_keys (s : State) (ms : List Message) : (s.print ms).keys = s.keys := rfl
@[simp] theorem print_mode (s : State) (ms : List Message) : (s.print ms).mode = s.mode := rfl
@[simp] theorem print_line (s : State) (ms : List Message) : (s.print ms).line = s.line := rfl
@[simp] theorem print_dumpFile (s : State) (ms : List Message) : (s.print ms).dumpFile = s.dumpFile := rfl
@[simp] theorem print_dumpOpens (s : State) (ms : List Message) : (s.print ms).dumpOpens = s.dumpOpens := rfl
@[simp] theorem print_console (s : State) (ms : List Message) : (s.print ms).console = s.console ++ ms := rfl
@[simp] theorem print_displayed (s : State) (ms : List Message) : (s.print ms).displayed = s.displayed := rfl
@[simp] theorem print_reply (s : State) (ms : List Message) : (s.print ms).reply = s.reply := rfl
@[simp] theorem print_calls (s : State) (ms : List Message) : (s.print ms).calls = s.calls := rfl
@[simp] theorem print_inputs (s : State) (ms : List Message) : (s.print ms).inputs = s.inputs := rfl
@[simp] theorem print_drawn (s : State) (ms : List Message) : (s.print ms).drawn = s.drawn := rfl

@[simp] theorem withReply_cfg (s : State) (r : Reply) : (s.withReply r).cfg = s.cfg := rfl
@[simp] theorem withReply_mem (s : State) (r : Reply) : (s.withReply r).mem = s.mem := rfl
@[simp] theorem withReply_pal (s : State) (r : Reply) : (s.withReply r).pal = s.pal := rfl
@[simp] theorem withReply_font (s : State) (r : Reply) : (s.withReply r).font = s.font := rfl
@[simp] theorem withReply_fb (s : State) (r : Reply) : (s.withReply r).fb = s.fb := rfl
@[simp] theorem withReply_keys (s : State) (r : Reply) : (s.withReply r).keys = s.keys := rfl
@[simp] theorem withReply_mode (s : State) (r : Reply) : (s.withReply r).mode = s.mode := rfl
@[simp] theorem withReply_line (s : State) (r : Reply) : (s.withReply r).line = s.line := rfl
@[simp] theorem withReply_dumpFile (s : State) (r : Reply) : (s.withReply r).dumpFile = s.dumpFile := rfl
@[simp] theorem withReply_dumpOpens (s : State) (r : Reply) : (s.withReply r).dumpOpens = s.dumpOpens := rfl
@[simp] theorem withReply_console (s : State) (r : Reply) : (s.withReply r).console = s.console := rfl
@[simp] theorem withReply_displayed (s : State) (r : Reply) : (s.withReply r).displayed = s.displayed := rfl
@[simp] theorem withReply_reply (s : State) (r : Reply) : (s.withReply r).reply = r := rfl
@[simp] theorem withReply_calls (s : State) (r : Reply) : (s.withReply r).calls = s.calls := rfl
@[simp] theorem withReply_inputs (s : State) (r : Reply) : (s.withReply r).inputs = s.inputs := rfl
@[simp] theorem withReply_drawn (s : State) (r : Reply) : (s.withReply r).drawn = s.drawn := rfl

@[simp] theorem sense_cfg (s : State) (m : Moment) : (s.sense m).cfg = s.cfg := rfl
@[simp] theorem sense_mem (s : State) (m : Moment) : (s.sense m).mem = s.mem := rfl
@[simp] theorem sense_pal (s : State) (m : Moment) : (s.sense m).pal = s.pal := rfl
@[simp] theorem sense_font (s : State) (m : Moment) : (s.sense m).font = s.font := rfl
@[simp] theorem sense_fb (s : State) (m : Moment) : (s.sense m).fb = s.fb := rfl
@[simp] theorem sense_keys (s : State) (m : Moment) : (s.sense m).keys = m.keys := rfl
@[simp] theorem sense_mode (s : State) (m : Moment) : (s.sense m).mode = s.mode := rfl
@[simp] theorem sense_line (s : State) (m : Moment) : (s.sense m).line = s.line := rfl
@[simp] theorem sense_dumpFile (s : State) (m : Moment) : (s.sense m).dumpFile = s.dumpFile := rfl
@[simp] theorem sense_dumpOpens (s : State) (m : Moment) : (s.sense m).dumpOpens = m.dumpOpens := rfl
@[simp] theorem sense_console (s : State) (m : Moment) : (s.sense m).console = s.console := rfl
@[simp] theorem sense_displayed (s : State) (m : Moment) : (s.sense m).displayed = s.displayed := rfl
@[simp] theorem sense_reply (s : State) (m : Moment) : (s.sense m).reply = s.reply := rfl
@[simp] theorem sense_calls (s : State) (m : Moment) : (s.sense m).calls = s.calls := rfl
@[simp] theorem sense_inputs (s : State) (m : Moment) : (s.sense m).inputs = s.inputs := rfl
@[simp] theorem sense_drawn (s : State) (m : Moment) : (s.sense m).drawn = s.drawn := rfl

@[simp] theorem present_cfg (s : State) : s.present.cfg = s.cfg := rfl
@[simp] theorem present_mem (s : State) : s.present.mem = s.mem := rfl
@[simp] theorem present_pal (s : State) : s.present.pal = s.pal := rfl
@[simp] theorem present_font (s : State) : s.present.font = s.font := rfl
@[simp] theorem present_fb (s : State) : s.present.fb = s.fb := rfl
@[simp] theorem present_keys (s : State) : s.present.keys = s.keys := rfl
@[simp] theorem present_mode (s : State) : s.present.mode = s.mode := rfl
@[simp] theorem present_line (s : State) : s.present.line = s.line := rfl
@[simp] theorem present_dumpFile (s : State) : s.present.dumpFile = s.dumpFile := rfl
@[simp] theorem present_dumpOpens (s : State) : s.present.dumpOpens = s.dumpOpens := rfl
@[simp] theorem present_console (s : State) : s.present.console = s.console := rfl
@[simp] theorem present_displayed (s : State) : s.present.displayed = some s.fb := rfl
@[simp] theorem present_reply (s : State) : s.present.reply = s.reply := rfl
@[simp] theorem present_calls (s : State) : s.present.calls = s.calls := rfl
@[simp] theorem present_inputs (s : State) : s.present.inputs = s.inputs := rfl
@[simp] theorem present_drawn (s : State) : s.present.drawn = s.drawn := rfl

@[simp] theorem latchKeys_cfg (s : State) : s.latchKeys.cfg = s.cfg := rfl
@[simp] theorem latchKeys_mem (s : State) :
    s.latchKeys.mem = s.mem.write s.cfg.ctrl1Addr.val (ctrlByte s.keys) :=
  rfl
@[simp] theorem latchKeys_pal (s : State) : s.latchKeys.pal = s.pal := rfl
@[simp] theorem latchKeys_font (s : State) : s.latchKeys.font = s.font := rfl
@[simp] theorem latchKeys_fb (s : State) : s.latchKeys.fb = s.fb := rfl
@[simp] theorem latchKeys_keys (s : State) : s.latchKeys.keys = s.keys := rfl
@[simp] theorem latchKeys_mode (s : State) : s.latchKeys.mode = s.mode := rfl
@[simp] theorem latchKeys_line (s : State) : s.latchKeys.line = s.line := rfl
@[simp] theorem latchKeys_dumpFile (s : State) : s.latchKeys.dumpFile = s.dumpFile := rfl
@[simp] theorem latchKeys_dumpOpens (s : State) : s.latchKeys.dumpOpens = s.dumpOpens := rfl
@[simp] theorem latchKeys_console (s : State) : s.latchKeys.console = s.console := rfl
@[simp] theorem latchKeys_displayed (s : State) : s.latchKeys.displayed = s.displayed := rfl
@[simp] theorem latchKeys_reply (s : State) : s.latchKeys.reply = s.reply := rfl
@[simp] theorem latchKeys_calls (s : State) : s.latchKeys.calls = s.calls := rfl
@[simp] theorem latchKeys_inputs (s : State) : s.latchKeys.inputs = s.inputs := rfl
@[simp] theorem latchKeys_drawn (s : State) : s.latchKeys.drawn = s.drawn := rfl

@[simp] theorem clearFrame_cfg (s : State) : s.clearFrame.cfg = s.cfg := (setFb_cfg s _).trans rfl
@[simp] theorem clearFrame_mem (s : State) : s.clearFrame.mem = s.mem := (setFb_mem s _).trans rfl
@[simp] theorem clearFrame_pal (s : State) : s.clearFrame.pal = s.pal := (setFb_pal s _).trans rfl
@[simp] theorem clearFrame_font (s : State) : s.clearFrame.font = s.font := (setFb_font s _).trans rfl
@[simp] theorem clearFrame_fb (s : State) : s.clearFrame.fb = FrameBuffer.cleared := (setFb_fb s _).trans rfl
@[simp] theorem clearFrame_keys (s : State) : s.clearFrame.keys = s.keys := (setFb_keys s _).trans rfl
@[simp] theorem clearFrame_mode (s : State) : s.clearFrame.mode = s.mode := (setFb_mode s _).trans rfl
@[simp] theorem clearFrame_line (s : State) : s.clearFrame.line = s.line := (setFb_line s _).trans rfl
@[simp] theorem clearFrame_dumpFile (s : State) :
    s.clearFrame.dumpFile = s.dumpFile :=
  (setFb_dumpFile s _).trans rfl
@[simp] theorem clearFrame_dumpOpens (s : State) :
    s.clearFrame.dumpOpens = s.dumpOpens :=
  (setFb_dumpOpens s _).trans rfl
@[simp] theorem clearFrame_console (s : State) :
    s.clearFrame.console = s.console :=
  (setFb_console s _).trans rfl
@[simp] theorem clearFrame_displayed (s : State) :
    s.clearFrame.displayed = s.displayed :=
  (setFb_displayed s _).trans rfl
@[simp] theorem clearFrame_reply (s : State) : s.clearFrame.reply = s.reply := (setFb_reply s _).trans rfl
@[simp] theorem clearFrame_calls (s : State) : s.clearFrame.calls = s.calls := (setFb_calls s _).trans rfl
@[simp] theorem clearFrame_inputs (s : State) : s.clearFrame.inputs = s.inputs := (setFb_inputs s _).trans rfl
@[simp] theorem clearFrame_drawn (s : State) : s.clearFrame.drawn = s.drawn := (setFb_drawn s _).trans rfl

@[simp] theorem drawBackground_cfg (s : State) : s.drawBackground.cfg = s.cfg := (setFb_cfg s _).trans rfl
@[simp] theorem drawBackground_mem (s : State) : s.drawBackground.mem = s.mem := (setFb_mem s _).trans rfl
@[simp] theorem drawBackground_pal (s : State) : s.drawBackground.pal = s.pal := (setFb_pal s _).trans rfl
@[simp] theorem drawBackground_font (s : State) : s.drawBackground.font = s.font := (setFb_font s _).trans rfl
@[simp] theorem drawBackground_fb (s : State) :
    s.drawBackground.fb = walkBackground s s.fb :=
  (setFb_fb s _).trans rfl
@[simp] theorem drawBackground_keys (s : State) : s.drawBackground.keys = s.keys := (setFb_keys s _).trans rfl
@[simp] theorem drawBackground_mode (s : State) : s.drawBackground.mode = s.mode := (setFb_mode s _).trans rfl
@[simp] theorem drawBackground_line (s : State) : s.drawBackground.line = s.line := (setFb_line s _).trans rfl
@[simp] theorem drawBackground_dumpFile (s : State) :
    s.drawBackground.dumpFile = s.dumpFile :=
  (setFb_dumpFile s _).trans rfl
@[simp] theorem drawBackground_dumpOpens (s : State) :
    s.drawBackground.dumpOpens = s.dumpOpens :=
  (setFb_dumpOpens s _).trans rfl
@[simp] theorem drawBackground_console (s : State) :
    s.drawBackground.console = s.console :=
  (setFb_console s _).trans rfl
@[simp] theorem drawBackground_displayed (s : State) :
    s.drawBackground.displayed = s.displayed :=
  (setFb_displayed s _).trans rfl
@[simp] theorem drawBackground_reply (s : State) :
    s.drawBackground.reply = s.reply :=
  (setFb_reply s _).trans rfl
@[simp] theorem drawBackground_calls (s : State) :
    s.drawBackground.calls = s.calls :=
  (setFb_calls s _).trans rfl
@[simp] theorem drawBackground_inputs (s : State) :
    s.drawBackground.inputs = s.inputs :=
  (setFb_inputs s _).trans rfl
@[simp] theorem drawBackground_drawn (s : State) :
    s.drawBackground.drawn = s.drawn :=
  (setFb_drawn s _).trans rfl

@[simp] theorem drawObjects_cfg (s : State) : s.drawObjects.cfg = s.cfg := (setFb_cfg s _).trans rfl
@[simp] theorem drawObjects_mem (s : State) : s.drawObjects.mem = s.mem := (setFb_mem s _).trans rfl
@[simp] theorem drawObjects_pal (s : State) : s.drawObjects.pal = s.pal := (setFb_pal s _).trans rfl
@[simp] theorem drawObjects_font (s : State) : s.drawObjects.font = s.font := (setFb_font s _).trans rfl
@[simp] theorem drawObjects_fb (s : State) : s.drawObjects.fb = walkObjects s s.fb := (setFb_fb s _).trans rfl
@[simp] theorem drawObjects_keys (s : State) : s.drawObjects.keys = s.keys := (setFb_keys s _).trans rfl
@[simp] theorem drawObjects_mode (s : State) : s.drawObjects.mode = s.mode := (setFb_mode s _).trans rfl
@[simp] theorem drawObjects_line (s : State) : s.drawObjects.line = s.line := (setFb_line s _).trans rfl
@[simp] theorem drawObjects_dumpFile (s : State) :
    s.drawObjects.dumpFile = s.dumpFile :=
  (setFb_dumpFile s _).trans rfl
@[simp] theorem drawObjects_dumpOpens (s : State) :
    s.drawObjects.dumpOpens = s.dumpOpens :=
  (setFb_dumpOpens s _).trans rfl
@[simp] theorem drawObjects_console (s : State) :
    s.drawObjects.console = s.console :=
  (setFb_console s _).trans rfl
@[simp] theorem drawObjects_displayed (s : State) :
    s.drawObjects.displayed = s.displayed :=
  (setFb_displayed s _).trans rfl
@[simp] theorem drawObjects_reply (s : State) : s.drawObjects.reply = s.reply := (setFb_reply s _).trans rfl
@[simp] theorem drawObjects_calls (s : State) : s.drawObjects.calls = s.calls := (setFb_calls s _).trans rfl
@[simp] theorem drawObjects_inputs (s : State) :
    s.drawObjects.inputs = s.inputs :=
  (setFb_inputs s _).trans rfl
@[simp] theorem drawObjects_drawn (s : State) : s.drawObjects.drawn = s.drawn := (setFb_drawn s _).trans rfl

@[simp] theorem drawText_cfg (s : State) : s.drawText.cfg = s.cfg := (setFb_cfg s _).trans rfl
@[simp] theorem drawText_mem (s : State) : s.drawText.mem = s.mem := (setFb_mem s _).trans rfl
@[simp] theorem drawText_pal (s : State) : s.drawText.pal = s.pal := (setFb_pal s _).trans rfl
@[simp] theorem drawText_font (s : State) : s.drawText.font = s.font := (setFb_font s _).trans rfl
@[simp] theorem drawText_fb (s : State) : s.drawText.fb = walkText s s.fb := (setFb_fb s _).trans rfl
@[simp] theorem drawText_keys (s : State) : s.drawText.keys = s.keys := (setFb_keys s _).trans rfl
@[simp] theorem drawText_mode (s : State) : s.drawText.mode = s.mode := (setFb_mode s _).trans rfl
@[simp] theorem drawText_line (s : State) : s.drawText.line = s.line := (setFb_line s _).trans rfl
@[simp] theorem drawText_dumpFile (s : State) :
    s.drawText.dumpFile = s.dumpFile :=
  (setFb_dumpFile s _).trans rfl
@[simp] theorem drawText_dumpOpens (s : State) :
    s.drawText.dumpOpens = s.dumpOpens :=
  (setFb_dumpOpens s _).trans rfl
@[simp] theorem drawText_console (s : State) : s.drawText.console = s.console := (setFb_console s _).trans rfl
@[simp] theorem drawText_displayed (s : State) :
    s.drawText.displayed = s.displayed :=
  (setFb_displayed s _).trans rfl
@[simp] theorem drawText_reply (s : State) : s.drawText.reply = s.reply := (setFb_reply s _).trans rfl
@[simp] theorem drawText_calls (s : State) : s.drawText.calls = s.calls := (setFb_calls s _).trans rfl
@[simp] theorem drawText_inputs (s : State) : s.drawText.inputs = s.inputs := (setFb_inputs s _).trans rfl
@[simp] theorem drawText_drawn (s : State) : s.drawText.drawn = s.drawn := (setFb_drawn s _).trans rfl

@[simp] theorem compose_cfg (s : State) :
    s.compose.cfg = s.cfg :=
  (present_cfg _).trans ((drawText_cfg _).trans ((drawObjects_cfg _).trans ((drawBackground_cfg _).trans (clearFrame_cfg s))))
@[simp] theorem compose_mem (s : State) :
    s.compose.mem = s.mem :=
  (present_mem _).trans ((drawText_mem _).trans ((drawObjects_mem _).trans ((drawBackground_mem _).trans (clearFrame_mem s))))
@[simp] theorem compose_pal (s : State) :
    s.compose.pal = s.pal :=
  (present_pal _).trans ((drawText_pal _).trans ((drawObjects_pal _).trans ((drawBackground_pal _).trans (clearFrame_pal s))))
@[simp] theorem compose_font (s : State) :
    s.compose.font = s.font :=
  (present_font _).trans ((drawText_font _).trans ((drawObjects_font _).trans ((drawBackground_font _).trans (clearFrame_font s))))
@[simp] theorem compose_keys (s : State) :
    s.compose.keys = s.keys :=
  (present_keys _).trans ((drawText_keys _).trans ((drawObjects_keys _).trans ((drawBackground_keys _).trans (clearFrame_keys s))))
@[simp] theorem compose_mode (s : State) :
    s.compose.mode = s.mode :=
  (present_mode _).trans ((drawText_mode _).trans ((drawObjects_mode _).trans ((drawBackground_mode _).trans (clearFrame_mode s))))
@[simp] theorem compose_line (s : State) :
    s.compose.line = s.line :=
  (present_line _).trans ((drawText_line _).trans ((drawObjects_line _).trans ((drawBackground_line _).trans (clearFrame_line s))))
@[simp] theorem compose_dumpFile (s : State) :
    s.compose.dumpFile = s.dumpFile :=
  (present_dumpFile _).trans ((drawText_dumpFile _).trans ((drawObjects_dumpFile _).trans ((drawBackground_dumpFile _).trans (clearFrame_dumpFile s))))
@[simp] theorem compose_dumpOpens (s : State) :
    s.compose.dumpOpens = s.dumpOpens :=
  (present_dumpOpens _).trans ((drawText_dumpOpens _).trans ((drawObjects_dumpOpens _).trans ((drawBackground_dumpOpens _).trans (clearFrame_dumpOpens s))))
@[simp] theorem compose_console (s : State) :
    s.compose.console = s.console :=
  (present_console _).trans ((drawText_console _).trans ((drawObjects_console _).trans ((drawBackground_console _).trans (clearFrame_console s))))
@[simp] theorem compose_reply (s : State) :
    s.compose.reply = s.reply :=
  (present_reply _).trans ((drawText_reply _).trans ((drawObjects_reply _).trans ((drawBackground_reply _).trans (clearFrame_reply s))))
@[simp] theorem compose_calls (s : State) :
    s.compose.calls = s.calls :=
  (present_calls _).trans ((drawText_calls _).trans ((drawObjects_calls _).trans ((drawBackground_calls _).trans (clearFrame_calls s))))
@[simp] theorem compose_inputs (s : State) :
    s.compose.inputs = s.inputs :=
  (present_inputs _).trans ((drawText_inputs _).trans ((drawObjects_inputs _).trans ((drawBackground_inputs _).trans (clearFrame_inputs s))))
@[simp] theorem compose_drawn (s : State) :
    s.compose.drawn = s.drawn :=
  (present_drawn _).trans ((drawText_drawn _).trans ((drawObjects_drawn _).trans ((drawBackground_drawn _).trans (clearFrame_drawn s))))

end Sys2Proof.Machine.State

namespace Sys2Proof.Machine

/-- The background walk reads configuration, memory and palette alone (R24). -/
theorem walkBackground_congr {s t : State} (fb : FrameBuffer) (hc : t.cfg = s.cfg) (hm : t.mem = s.mem)
    (hp : t.pal = s.pal) : walkBackground t fb = walkBackground s fb := by
  simp only [walkBackground, drawBackgroundCell, backgroundBlit, State.nametableEntry, State.readTile,
    State.readByte, hc, hm, hp]

/-- The object walk reads configuration, memory and palette alone (R24). -/
theorem walkObjects_congr {s t : State} (fb : FrameBuffer) (hc : t.cfg = s.cfg) (hm : t.mem = s.mem)
    (hp : t.pal = s.pal) : walkObjects t fb = walkObjects s fb := by
  simp only [walkObjects, drawObject, objectBlit, State.objectEntry, State.readTile, hc, hm, hp]

/-- The text walk reads configuration, memory, palette and font alone (R24). -/
theorem walkText_congr {s t : State} (fb : FrameBuffer) (hc : t.cfg = s.cfg) (hm : t.mem = s.mem)
    (hp : t.pal = s.pal) (hf : t.font = s.font) : walkText t fb = walkText s fb := by
  simp only [walkText, drawTextCell, textBlit, State.textEntry, hc, hm, hp, hf]

namespace State

/-- A buffer replaced by itself is no change. -/
@[simp] theorem setFb_self (s : State) : s.setFb s.fb = s := rfl

/-- The buffer a composition leaves: the three walks over the cleared one, all reading the state before
it (R104). -/
theorem compose_fb (s : State) :
    s.compose.fb = walkText s (walkObjects s (walkBackground s FrameBuffer.cleared)) := by
  have h1 : s.clearFrame.drawBackground.fb = walkBackground s FrameBuffer.cleared := by
    rw [drawBackground_fb, clearFrame_fb]
    exact walkBackground_congr _ (clearFrame_cfg s) (clearFrame_mem s) (clearFrame_pal s)
  have h2 : s.clearFrame.drawBackground.drawObjects.fb
      = walkObjects s (walkBackground s FrameBuffer.cleared) := by
    rw [drawObjects_fb, h1]
    exact walkObjects_congr _ (by rw [drawBackground_cfg, clearFrame_cfg])
      (by rw [drawBackground_mem, clearFrame_mem]) (by rw [drawBackground_pal, clearFrame_pal])
  rw [compose, present_fb, drawText_fb, h2]
  exact walkText_congr _ (by rw [drawObjects_cfg, drawBackground_cfg, clearFrame_cfg])
    (by rw [drawObjects_mem, drawBackground_mem, clearFrame_mem])
    (by rw [drawObjects_pal, drawBackground_pal, clearFrame_pal])
    (by rw [drawObjects_font, drawBackground_font, clearFrame_font])

/-- The buffer shown after a composition is the buffer it leaves (R106). -/
@[simp] theorem compose_displayed (s : State) : s.compose.displayed = some s.compose.fb := by
  rw [compose, present_displayed, present_fb]

/-- Pacing changes no state (R150). -/
@[simp] theorem pace_eq (s : State) : s.pace = s := rfl

/-- All that a frame-sync handling does (R144). -/
theorem frameSync_eq (s : State) : s.frameSync = s.compose.latchKeys := pace_eq _

/-- The one byte of memory a frame-sync handling writes (R144). -/
theorem frameSync_mem (s : State) :
    s.frameSync.mem = s.mem.write s.cfg.ctrl1Addr.val (ctrlByte s.keys) := by
  rw [frameSync_eq, latchKeys_mem, compose_mem, compose_cfg, compose_keys]

@[simp] theorem frameSync_cfg (s : State) : s.frameSync.cfg = s.cfg :=
  (congrArg cfg (frameSync_eq s)).trans ((latchKeys_cfg _).trans (compose_cfg s))
@[simp] theorem frameSync_pal (s : State) : s.frameSync.pal = s.pal :=
  (congrArg pal (frameSync_eq s)).trans ((latchKeys_pal _).trans (compose_pal s))
@[simp] theorem frameSync_font (s : State) : s.frameSync.font = s.font :=
  (congrArg font (frameSync_eq s)).trans ((latchKeys_font _).trans (compose_font s))
@[simp] theorem frameSync_fb (s : State) : s.frameSync.fb = s.compose.fb := by
  rw [frameSync_eq, latchKeys_fb]
@[simp] theorem frameSync_keys (s : State) : s.frameSync.keys = s.keys :=
  (congrArg keys (frameSync_eq s)).trans ((latchKeys_keys _).trans (compose_keys s))
@[simp] theorem frameSync_mode (s : State) : s.frameSync.mode = s.mode :=
  (congrArg mode (frameSync_eq s)).trans ((latchKeys_mode _).trans (compose_mode s))
@[simp] theorem frameSync_line (s : State) : s.frameSync.line = s.line :=
  (congrArg line (frameSync_eq s)).trans ((latchKeys_line _).trans (compose_line s))
@[simp] theorem frameSync_dumpFile (s : State) : s.frameSync.dumpFile = s.dumpFile :=
  (congrArg dumpFile (frameSync_eq s)).trans ((latchKeys_dumpFile _).trans (compose_dumpFile s))
@[simp] theorem frameSync_dumpOpens (s : State) : s.frameSync.dumpOpens = s.dumpOpens :=
  (congrArg dumpOpens (frameSync_eq s)).trans ((latchKeys_dumpOpens _).trans (compose_dumpOpens s))
@[simp] theorem frameSync_console (s : State) : s.frameSync.console = s.console :=
  (congrArg console (frameSync_eq s)).trans ((latchKeys_console _).trans (compose_console s))
@[simp] theorem frameSync_displayed (s : State) : s.frameSync.displayed = some s.compose.fb :=
  (congrArg displayed (frameSync_eq s)).trans ((latchKeys_displayed _).trans (compose_displayed s))
@[simp] theorem frameSync_reply (s : State) : s.frameSync.reply = s.reply :=
  (congrArg reply (frameSync_eq s)).trans ((latchKeys_reply _).trans (compose_reply s))
@[simp] theorem frameSync_calls (s : State) : s.frameSync.calls = s.calls :=
  (congrArg calls (frameSync_eq s)).trans ((latchKeys_calls _).trans (compose_calls s))
@[simp] theorem frameSync_inputs (s : State) : s.frameSync.inputs = s.inputs :=
  (congrArg inputs (frameSync_eq s)).trans ((latchKeys_inputs _).trans (compose_inputs s))
@[simp] theorem frameSync_drawn (s : State) : s.frameSync.drawn = s.drawn :=
  (congrArg drawn (frameSync_eq s)).trans ((latchKeys_drawn _).trans (compose_drawn s))

end State
end Sys2Proof.Machine
end

