-- ==== Sys2Proof/Laws/Loop.lean ====
section
/-! SUPPORT. A loop over a list seen at one pixel: which of its turns shows. -/

namespace Sys2Proof.Machine

/-- A loop of buffer writes, seen at one pixel, is a loop over that pixel's value. -/
theorem foldl_pixel {α : Type} {f : FrameBuffer → α → FrameBuffer} {x : Fin 256} {y : Fin 240}
    {g : Option Colour → α → Option Colour} (h : ∀ fb a, (f fb a).pixel x y = g (fb.pixel x y) a)
    (l : List α) (fb : FrameBuffer) : (l.foldl f fb).pixel x y = l.foldl g (fb.pixel x y) := by
  induction l generalizing fb with
  | nil => rfl
  | cons a l ih => simp only [List.foldl_cons, ih, h]

/-- A loop none of whose turns does anything. -/
theorem foldl_idle {α β : Type} {g : β → α → β} {l : List α} {v : β} (h : ∀ a ∈ l, g v a = v) :
    l.foldl g v = v := by
  induction l with
  | nil => rfl
  | cons a l ih =>
    rw [List.foldl_cons, h a (by simp), ih fun b hb => h b (by simp [hb])]

/-- A loop that acts in one turn only. -/
theorem foldl_once {α β : Type} {g : β → α → β} {l : List α} (hl : l.Nodup) {a : α} (ha : a ∈ l)
    (h : ∀ b ∈ l, b ≠ a → ∀ v, g v b = v) (v : β) : l.foldl g v = g v a := by
  induction l generalizing v with
  | nil => cases ha
  | cons b l ih =>
    rw [List.foldl_cons]
    rw [List.nodup_cons] at hl
    rcases List.mem_cons.mp ha with rfl | ha'
    · exact foldl_idle fun c hc => h c (by simp [hc]) (fun hca => hl.1 (hca ▸ hc)) _
    · rw [h b (by simp) (fun hba => hl.1 (hba ▸ ha'))]
      exact ih hl.2 ha' (fun c hc => h c (by simp [hc])) v

/-- A loop that runs a list backwards and overwrites shows the first of the list that writes: the
priority rule of R88. -/
theorem foldl_reverse_overwrite {α β : Type} (p : α → Option β) (l : List α) (v : Option β) :
    l.reverse.foldl (fun w a => (p a).or w) v = (l.findSome? p).or v := by
  induction l with
  | nil => rfl
  | cons a l ih =>
    rw [List.reverse_cons, List.foldl_append, ih, List.foldl_cons, List.foldl_nil, List.findSome?_cons]
    cases p a <;> rfl

end Sys2Proof.Machine
end

