-- ==== Sys2Proof/Laws/Frame.lean ====
section
/-! SUPPORT. The frame buffer seen at one pixel: after a write, a clear and a blit. -/

namespace Sys2Proof.Machine

namespace FrameBuffer

/-- `FbWrite` seen at one pixel (R101). -/
theorem pixel_write (fb : FrameBuffer) (px py : Nat) (v : Colour) (x : Fin 256) (y : Fin 240) :
    (fb.write px py v).pixel x y = if px = x.val ∧ py = y.val then some v else fb.pixel x y := by
  unfold write pixel
  split
  case isTrue h =>
    simp only [Fin.getElem_fin, Vector.getElem_set]
    by_cases hy : py = y.val
    · subst hy
      by_cases hx : px = x.val <;> simp [hx]
    · simp [hy]
  case isFalse h =>
    rw [if_neg]
    rintro ⟨rfl, rfl⟩
    exact h ⟨x.isLt, y.isLt⟩

/-- Every pixel of a cleared buffer is black (R100). -/
@[simp] theorem pixel_cleared (x : Fin 256) (y : Fin 240) : cleared.pixel x y = some Colour.black := by
  simp [cleared, pixel]

/-- No pixel of an unspecified buffer has a value (R20). -/
@[simp] theorem pixel_unspecified (x : Fin 256) (y : Fin 240) :
    FrameBuffer.pixel unspecifiedFrame x y = none := by
  simp [unspecifiedFrame, pixel]

/-- Two buffers with the same pixels are the same buffer. -/
theorem ext_pixel {fb gb : FrameBuffer} (h : ∀ x y, fb.pixel x y = gb.pixel x y) : fb = gb := by
  refine Vector.ext fun y hy => Vector.ext fun x hx => ?_
  exact h ⟨x, hx⟩ ⟨y, hy⟩

end FrameBuffer

/-- What a pixel step of `BLIT` makes of the value of one screen pixel. -/
def pixelStep (pal : Palette) (b : Blit) (x : Fin 256) (y : Fin 240) (v : Option Colour)
    (r c : TileCoord) : Option Colour :=
  if b.ox.val + c.val = x.val ∧ b.oy.val + r.val = y.val then (blitColour pal b x y).or v else v

theorem blitShade_hit {b : Blit} {x : Fin 256} {y : Fin 240} {r c : TileCoord}
    (hx : b.ox.val + c.val = x.val) (hy : b.oy.val + r.val = y.val) :
    blitShade b x y = some b.shades[mirrored b.vflip r][mirrored b.hflip c] := by
  have hr : (⟨y.val - b.oy.val, by omega⟩ : TileCoord) = r := Fin.ext (by simp; omega)
  have hc : (⟨x.val - b.ox.val, by omega⟩ : TileCoord) = c := Fin.ext (by simp; omega)
  rw [blitShade, dif_pos (by omega)]
  simp only [hr, hc]

/-- A pixel step of `BLIT` seen at one screen pixel (R103). -/
theorem pixel_blitPixel (pal : Palette) (b : Blit) (fb : FrameBuffer) (r c : TileCoord) (x : Fin 256)
    (y : Fin 240) : (blitPixel pal b fb r c).pixel x y = pixelStep pal b x y (fb.pixel x y) r c := by
  unfold pixelStep
  split
  case isTrue h =>
    unfold blitColour blitPixel
    rw [blitShade_hit h.1 h.2]
    simp only
    split
    · simp
    · rw [FrameBuffer.pixel_write, if_pos h]; simp
  case isFalse h =>
    unfold blitPixel
    simp only
    split
    · rfl
    · rw [FrameBuffer.pixel_write, if_neg h]

/-- Everything `BLIT` does, seen at one screen pixel: it paints the colour of the source pixel that
lands there, or leaves the pixel alone (R101, R103). -/
theorem pixel_blitInto (pal : Palette) (b : Blit) (fb : FrameBuffer) (x : Fin 256) (y : Fin 240) :
    (blitInto pal b fb).pixel x y = (blitColour pal b x y).or (fb.pixel x y) := by
  have hrow : ∀ fb r, ((List.finRange 8).foldl (fun fb c => blitPixel pal b fb r c) fb).pixel x y
      = (List.finRange 8).foldl (fun v c => pixelStep pal b x y v r c) (fb.pixel x y) := fun fb r =>
    foldl_pixel (g := fun v c => pixelStep pal b x y v r c)
      (fun fb c => pixel_blitPixel pal b fb r c x y) _ fb
  have hall : (blitInto pal b fb).pixel x y = (List.finRange 8).foldl (fun v r =>
      (List.finRange 8).foldl (fun v c => pixelStep pal b x y v r c) v) (fb.pixel x y) :=
    foldl_pixel (g := fun v r => (List.finRange 8).foldl (fun v c => pixelStep pal b x y v r c) v)
      hrow _ fb
  rw [hall]
  by_cases h : (b.ox.val ≤ x.val ∧ x.val < b.ox.val + 8) ∧ (b.oy.val ≤ y.val ∧ y.val < b.oy.val + 8)
  · rw [foldl_once (List.nodup_finRange 8) (List.mem_finRange (⟨y.val - b.oy.val, by omega⟩ : TileCoord)),
      foldl_once (List.nodup_finRange 8) (List.mem_finRange (⟨x.val - b.ox.val, by omega⟩ : TileCoord))]
    · unfold pixelStep
      rw [if_pos (by constructor <;> simp <;> omega)]
    · intro c _ hc v
      refine if_neg fun hh => hc (Fin.ext ?_)
      simp
      omega
    · intro r _ hr v
      refine foldl_idle fun c _ => if_neg fun hh => hr (Fin.ext ?_)
      simp
      omega
  · have hn : blitColour pal b x y = none := by
      unfold blitColour blitShade
      rw [dif_neg h]
    rw [hn]
    refine foldl_idle fun r _ => foldl_idle fun c _ => if_neg fun hh => h ?_
    omega

end Sys2Proof.Machine
end

