-- ==== Sys2Proof/Laws/Memory.lean ====
section
/-! SUPPORT. What a read gives after a write, and that every memory operation keeps the canonical form. -/

namespace Sys2Proof.Machine.Memory

/-- Reading a memory all of whose cells lie at `lo` or above, below `lo`. -/
theorem read_below {lo : Nat} {m : Memory} (h : m.canonicalFrom lo = true) {a : Nat} (ha : a < lo) :
    m.read a = unlisted := by
  induction m generalizing lo with
  | nil => rfl
  | cons c rest ih =>
    obtain ⟨k, v⟩ := c
    simp only [canonicalFrom, Bool.and_eq_true, decide_eq_true_eq] at h
    have hk : k ≠ a := by omega
    simp only [read, if_neg hk]
    exact ih h.2 (by omega)

theorem canonicalFrom_mono {lo lo' : Nat} {m : Memory} (h : m.canonicalFrom lo = true) (hl : lo' ≤ lo) :
    m.canonicalFrom lo' = true := by
  cases m with
  | nil => rfl
  | cons c rest =>
    obtain ⟨k, v⟩ := c
    simp only [canonicalFrom, Bool.and_eq_true, decide_eq_true_eq] at h ⊢
    exact ⟨⟨⟨by omega, h.1.1.2⟩, h.1.2⟩, h.2⟩

theorem listed_canonical {lo a : Nat} {b : Byte} {rest : Memory} (hr : rest.canonicalFrom (a + 1) = true)
    (hlo : lo ≤ a) (ha : a < 65536) : (listed a b rest).canonicalFrom lo = true := by
  unfold listed
  split
  · exact canonicalFrom_mono hr (by omega)
  · simp only [canonicalFrom, Bool.and_eq_true, decide_eq_true_eq]
    exact ⟨⟨⟨hlo, ha⟩, by assumption⟩, hr⟩

theorem read_listed {a : Nat} {b : Byte} {rest : Memory} (hr : rest.canonicalFrom (a + 1) = true) (x : Nat) :
    (listed a b rest).read x = if a = x then b else rest.read x := by
  unfold listed
  split
  case isTrue h =>
    split
    · next hx => subst hx; rw [h]; exact read_below hr (by omega)
    · rfl
  case isFalse => rfl

/-- A write keeps the canonical form. -/
theorem write_canonicalFrom {lo : Nat} {m : Memory} (h : m.canonicalFrom lo = true) {a : Nat} (b : Byte)
    (hlo : lo ≤ a) (ha : a < 65536) : (m.write a b).canonicalFrom lo = true := by
  induction m generalizing lo with
  | nil => exact listed_canonical rfl hlo ha
  | cons c rest ih =>
    obtain ⟨k, v⟩ := c
    have h' := h
    simp only [canonicalFrom, Bool.and_eq_true, decide_eq_true_eq] at h
    simp only [write]
    split
    · next hak =>
      refine listed_canonical ?_ hlo ha
      simp only [canonicalFrom, Bool.and_eq_true, decide_eq_true_eq]
      exact ⟨⟨⟨by omega, h.1.1.2⟩, h.1.2⟩, h.2⟩
    · split
      · next hka => subst hka; exact listed_canonical h.2 hlo ha
      · simp only [canonicalFrom, Bool.and_eq_true, decide_eq_true_eq]
        exact ⟨⟨⟨h.1.1.1, h.1.1.2⟩, h.1.2⟩, ih h.2 (by omega)⟩

/-- Reading any address after a write in a canonical memory. -/
theorem read_write_from {lo : Nat} {m : Memory} (h : m.canonicalFrom lo = true) (a : Nat) (b : Byte)
    (x : Nat) : (m.write a b).read x = if a = x then b else m.read x := by
  induction m generalizing lo with
  | nil => exact read_listed (rest := []) rfl x
  | cons c rest ih =>
    obtain ⟨k, v⟩ := c
    simp only [canonicalFrom, Bool.and_eq_true, decide_eq_true_eq] at h
    simp only [write]
    split
    · next hak =>
      refine read_listed ?_ x
      simp only [canonicalFrom, Bool.and_eq_true, decide_eq_true_eq]
      exact ⟨⟨⟨by omega, h.1.1.2⟩, h.1.2⟩, h.2⟩
    · split
      · next hka =>
        subst hka
        rw [read_listed h.2]
        by_cases hx : k = x <;> simp [read, hx]
      · next hka =>
        simp only [read, ih h.2]
        by_cases hx : a = x
        · subst hx; simp [hka]
        · simp [hx]

/-- The byte written is read back, every other byte as before (R36). -/
theorem read_write {m : Memory} (h : m.wf = true) (a : Nat) (b : Byte) (x : Nat) :
    (m.write a b).read x = if a = x then b else m.read x := read_write_from h a b x

/-- A byte written into any memory, canonical or not, leaves every other address alone (R36). -/
theorem read_write_ne (m : Memory) {a x : Nat} (b : Byte) (hx : a ≠ x) :
    (m.write a b).read x = m.read x := by
  induction m with
  | nil => simp only [write, listed]; split <;> simp [read, hx]
  | cons c rest ih =>
    obtain ⟨k, v⟩ := c
    simp only [write, listed]
    repeat' split
    all_goals simp_all [read]

/-- A write inside the address space keeps the canonical form. -/
theorem wf_write {m : Memory} (h : m.wf = true) (a : Addr) (b : Byte) : (m.write a.val b).wf = true :=
  write_canonicalFrom h b (Nat.zero_le _) a.isLt

/-- The stores of a CPU cycle keep the canonical form. -/
theorem wf_stores {m : Memory} (h : m.wf = true) (ws : List (Addr × Byte)) :
    (ws.foldl (fun m w => m.write w.1.val w.2) m).wf = true := by
  induction ws generalizing m with
  | nil => exact h
  | cons w ws ih => exact ih (wf_write h w.1 w.2)

/-- Bytes stored inside the address space keep the canonical form. -/
theorem wf_writeBytes {m : Memory} (h : m.wf = true) (a : Nat) (bs : List Byte)
    (hb : a + bs.length ≤ 65536) : (m.writeBytes a bs).wf = true := by
  induction bs generalizing m a with
  | nil => exact h
  | cons b bs ih =>
    simp only [List.length_cons] at hb
    exact ih (write_canonicalFrom h b (Nat.zero_le _) (by omega)) (a + 1) (by omega)

theorem ofBytes_canonical (bs : List Byte) (a : Nat) (h : a + bs.length ≤ 65536) :
    (ofBytes a bs).canonicalFrom a = true := by
  induction bs generalizing a with
  | nil => rfl
  | cons b bs ih =>
    simp only [List.length_cons] at h
    exact listed_canonical (ih (a + 1) (by omega)) (Nat.le_refl _) (by omega)

/-- A loaded image is in canonical form. -/
theorem wf_ofBytes (bs : List Byte) (h : bs.length ≤ 65536) : (ofBytes 0 bs).wf = true :=
  ofBytes_canonical bs 0 (by omega)

/-- Reading a canonical memory above the address space. -/
theorem read_above {lo : Nat} {m : Memory} (h : m.canonicalFrom lo = true) {a : Nat} (ha : 65536 ≤ a) :
    m.read a = unlisted := by
  induction m generalizing lo with
  | nil => rfl
  | cons c m ih =>
    obtain ⟨k, v⟩ := c
    simp only [canonicalFrom, Bool.and_eq_true, decide_eq_true_eq] at h
    simp only [read, if_neg (show k ≠ a by omega)]
    exact ih h.2

/-- The stores of a CPU cycle leave every address they do not name alone (R36). -/
theorem read_stores (ws : List (Addr × Byte)) (m : Memory) {a : Addr} (h : ∀ w ∈ ws, w.1 ≠ a) :
    (ws.foldl (fun m w => m.write w.1.val w.2) m).read a.val = m.read a.val := by
  induction ws generalizing m with
  | nil => rfl
  | cons w ws ih =>
    rw [List.foldl_cons, ih _ fun w hw => h w (by simp [hw])]
    exact read_write_ne _ _ fun e => h w (by simp) (Fin.ext e)

/-- Bytes stored from `a` up leave the addresses below alone. -/
theorem read_writeBytes_below (bs : List Byte) (m : Memory) {a x : Nat} (h : x < a) :
    (m.writeBytes a bs).read x = m.read x := by
  induction bs generalizing m a with
  | nil => rfl
  | cons b bs ih =>
    simp only [writeBytes]
    rw [ih _ (by omega), read_write_ne _ _ (by omega)]

/-- Bytes stored from `a` up are read back (R31). -/
theorem read_writeBytes (bs : List Byte) {m : Memory} (hm : m.wf = true) {a k : Nat} (hk : k < bs.length)
    (hb : a + bs.length ≤ 65536) : (m.writeBytes a bs).read (a + k) = bs[k] := by
  induction bs generalizing m a k with
  | nil => simp at hk
  | cons b bs ih =>
    simp only [List.length_cons] at hk hb
    simp only [writeBytes]
    cases k with
    | zero =>
      rw [read_writeBytes_below _ _ (by omega), read_write hm, if_pos (by omega)]
      rfl
    | succ k =>
      have h := ih (wf_write hm (⟨a, by omega⟩ : Addr) b) (a := a + 1) (k := k) (by omega) (by omega)
      rw [show a + (k + 1) = a + 1 + k by omega, h]
      rfl

/-- A loaded image is read back byte for byte (R14, R161). -/
theorem read_ofBytes (bs : List Byte) {a x : Nat} (h : a + bs.length ≤ 65536) (hx : x < bs.length) :
    some ((ofBytes a bs).read (a + x)) = bs[x]? := by
  induction bs generalizing a x with
  | nil => simp at hx
  | cons b bs ih =>
    simp only [List.length_cons] at h hx
    simp only [ofBytes]
    rw [read_listed (ofBytes_canonical bs (a + 1) (by omega))]
    cases x with
    | zero => simp
    | succ x =>
      rw [if_neg (by omega), List.getElem?_cons_succ, ← ih (a := a + 1) (by omega) (by omega),
        show a + (x + 1) = a + 1 + x by omega]

/-- A listed cell is read first. -/
theorem read_head (k : Nat) (v : Byte) (m : Memory) : read ((k, v) :: m) k = v := by simp [read]

/-- Canonical memories that read alike are equal: the point of the form. -/
theorem ext_read {lo : Nat} {m n : Memory} (hm : m.canonicalFrom lo = true) (hn : n.canonicalFrom lo = true)
    (h : ∀ a, m.read a = n.read a) : m = n := by
  have canonical_cons : ∀ {k v} {r : Memory} {l}, canonicalFrom l ((k, v) :: r) = true →
      v ≠ unlisted ∧ r.canonicalFrom (k + 1) = true ∧ canonicalFrom k ((k, v) :: r) = true := by
    intro k v r l h
    simp only [canonicalFrom, Bool.and_eq_true, decide_eq_true_eq] at h ⊢
    exact ⟨h.1.2, h.2, ⟨⟨Nat.le_refl _, h.1.1.2⟩, h.1.2⟩, h.2⟩
  induction m generalizing n lo with
  | nil =>
    cases n with
    | nil => rfl
    | cons c n => exact absurd ((read_head _ _ _).symm.trans (h c.1).symm) (canonical_cons hn).1
  | cons c m ih =>
    obtain ⟨k, v⟩ := c
    obtain ⟨hv, hr, hk⟩ := canonical_cons hm
    cases n with
    | nil => exact absurd ((read_head _ _ _).symm.trans (h k)) hv
    | cons c' n =>
      obtain ⟨k', v'⟩ := c'
      obtain ⟨hv', hr', hk'⟩ := canonical_cons hn
      have key : k = k' := by
        rcases Nat.lt_trichotomy k k' with hl | hl | hl
        · exact absurd ((read_head _ _ _).symm.trans ((h k).trans (read_below hk' hl))) hv
        · exact hl
        · exact absurd ((read_head _ _ _).symm.trans ((h k').symm.trans (read_below hk hl))) hv'
      subst key
      have hvv : v = v' := by simpa [read] using h k
      subst hvv
      rw [ih hr hr' fun a => ?_]
      by_cases ha : k = a
      · subst ha
        rw [read_below hr (by omega), read_below hr' (by omega)]
      · simpa [read, ha] using h a

end Sys2Proof.Machine.Memory
end

