-- ==== Sys2Proof/Laws/Exec.lean ====
section
/-! SUPPORT. The meaning of every operation as one equation, and the blits of the three compositors field by field. -/

namespace Sys2Proof.Machine

theorem exec_pdec (p : Tile) (r c : TileCoord) (s : State) :
    exec (.pdec p r c) s = .next (s.withReply (.shade (patternShade p r c))) := rfl
theorem exec_bgtile (i : Cell) (e : Nte) (s : State) :
    exec (.bgtile i e) s = .next (s.setFb (blitInto s.pal (backgroundBlit s i e) s.fb)) := rfl
theorem exec_objdraw (k : ObjSlot) (o : Obje) (s : State) :
    exec (.objdraw k o) s = .next (s.setFb (blitInto s.pal (objectBlit s o) s.fb)) := rfl
theorem exec_txtcell (i : Cell) (e : Txte) (s : State) :
    exec (.txtcell i e) s = .next (s.setFb (blitInto s.pal (textBlit s i e) s.fb)) := rfl
theorem exec_bgpal (b : Byte) (s : State) :
    exec (.bgpal b) s = .next (s.withReply (.hues (bgHue0 s.cfg b) (bgHue1 s.cfg b))) := rfl
theorem exec_inlatch (s : State) : exec .inlatch s = .next s.latchKeys := rfl
theorem exec_pdect (p : Tile) (s : State) :
    exec (.pdect p) s = .next (s.withReply (.grid (patternGrid p))) := rfl
theorem exec_pinit (full : FullColours) (s : State) :
    exec (.pinit full) s = .next { s with pal := derivePalette full } := rfl
theorem exec_plut (h : Hue) (sh : Shade) (s : State) :
    exec (.plut h sh) s = .next (s.withReply (.colour (paletteColour s.pal h sh))) := rfl
theorem exec_bgwalk (s : State) : exec .bgwalk s = .next s.drawBackground := rfl
theorem exec_objwalk (s : State) : exec .objwalk s = .next s.drawObjects := rfl
theorem exec_txtwalk (s : State) : exec .txtwalk s = .next s.drawText := rfl
theorem exec_finit (img : FontImage) (s : State) : exec (.finit img) s
    = .next { s with font := loadFont (Config.freeFontBit s.drawn) img, drawn := s.drawn + 1 } := rfl
theorem exec_fbclr (s : State) : exec .fbclr s = .next s.clearFrame := rfl
theorem exec_fbwr (x y : Nat) (v : Colour) (s : State) :
    exec (.fbwr x y v) s = .next (s.setFb (s.fb.write x y v)) := rfl
theorem exec_fbrd (x : Fin 256) (y : Fin 240) (s : State) : exec (.fbrd x y) s = execFbrd x y s := rfl
theorem exec_blit (b : Blit) (s : State) :
    exec (.blit b) s = .next (s.setFb (blitInto s.pal b s.fb)) := rfl
theorem exec_compose (s : State) : exec .compose s = .next s.compose := rfl
theorem exec_framesync (s : State) : exec .framesync s = .next s.frameSync := rfl
theorem exec_halt (s : State) : exec .halt s = .next s.enterMonitor := rfl
theorem exec_reset (l : Launch) (s : State) : exec (.reset l) s = execReset l s := rfl
theorem exec_help (s : State) : exec .help s = .next (s.print [.usage]).enterMonitor := rfl
theorem exec_step (s : State) : exec .step s
    = .next (commandLoop .instructionBoundary s.inputs { s with mode := .executingStep }) := rfl
theorem exec_frame (s : State) : exec .frame s
    = .next (commandLoop .frameSync s.inputs { s with mode := .executingFrame }) := rfl
theorem exec_peek (lo hi : Option Nat) (s : State) :
    exec (.peek lo hi) s = .next (s.print (peekMessages s.mem lo hi)).enterMonitor := rfl
theorem exec_dump (s : State) : exec .dump s = execDump s := rfl
theorem exec_run (s : State) : exec .run s = .next s.leaveMonitor := rfl
theorem exec_quit (s : State) : exec .quit s = .next (s.endProcess .quit) := rfl

/-! ### The blits of the three compositors, field by field -/

@[simp] theorem backgroundBlit_ox (s : State) (i : Cell) (e : Nte) : (backgroundBlit s i e).ox = cellX i := rfl
@[simp] theorem backgroundBlit_oy (s : State) (i : Cell) (e : Nte) : (backgroundBlit s i e).oy = cellY i := rfl
@[simp] theorem backgroundBlit_transparent0 (s : State) (i : Cell) (e : Nte) :
    (backgroundBlit s i e).transparent0 = false := rfl
@[simp] theorem objectBlit_ox (s : State) (o : Obje) : (objectBlit s o).ox = o.x := rfl
@[simp] theorem objectBlit_oy (s : State) (o : Obje) : (objectBlit s o).oy = o.y := rfl
@[simp] theorem objectBlit_hue (s : State) (o : Obje) : (objectBlit s o).hue = o.hue := rfl
@[simp] theorem objectBlit_transparent0 (s : State) (o : Obje) : (objectBlit s o).transparent0 = true := rfl
@[simp] theorem textBlit_ox (s : State) (i : Cell) (e : Txte) : (textBlit s i e).ox = cellX i := rfl
@[simp] theorem textBlit_oy (s : State) (i : Cell) (e : Txte) : (textBlit s i e).oy = cellY i := rfl
@[simp] theorem textBlit_hue (s : State) (i : Cell) (e : Txte) : (textBlit s i e).hue = textHue s.cfg e := rfl
@[simp] theorem textBlit_transparent0 (s : State) (i : Cell) (e : Txte) :
    (textBlit s i e).transparent0 = true := rfl

/-- A screen pixel lies in a cell's square exactly when the cell is the one that covers it (R80). -/
theorem inCell_iff (i : Cell) (x : Fin 256) (y : Fin 240) :
    (((cellX i).val ≤ x.val ∧ x.val < (cellX i).val + 8) ∧ ((cellY i).val ≤ y.val ∧ y.val < (cellY i).val + 8))
      ↔ cellAt x y = i := by
  simp only [cellX, cellY, cellAt, Fin.ext_iff]
  omega

/-- A blit paints nothing outside its square (R103). -/
theorem blitColour_outside (pal : Palette) (b : Blit) (x : Fin 256) (y : Fin 240)
    (h : ¬((b.ox.val ≤ x.val ∧ x.val < b.ox.val + 8) ∧ (b.oy.val ≤ y.val ∧ y.val < b.oy.val + 8))) :
    blitColour pal b x y = none := by
  unfold blitColour blitShade
  rw [dif_neg h]

/-- What a blit paints at the destination of a tile pixel (R103). -/
theorem blitColour_inside (pal : Palette) (b : Blit) {x : Fin 256} {y : Fin 240} {r c : TileCoord}
    (hx : b.ox.val + c.val = x.val) (hy : b.oy.val + r.val = y.val) :
    blitColour pal b x y =
      if (b.transparent0 && decide (b.shades[mirrored b.vflip r][mirrored b.hflip c] = 0)) = true then none
      else some (paletteColour pal b.hue b.shades[mirrored b.vflip r][mirrored b.hflip c]) := by
  unfold blitColour
  rw [blitShade_hit hx hy]

end Sys2Proof.Machine
end

