-- ==== Sys2Proof/Laws/PerInstr.lean ====
section
/-! SUPPORT. Facts about every operation as syntax, one lemma per constructor. -/

namespace Sys2Proof.Laws.EncodeSelection

/-- An operation is encoded as a call exactly when no bits select it (R64). -/
def Statement (i : Instr) : Prop := i.calledOnly = true ↔ (encode i).1 = .call i

theorem pdec (p : Tile) (r c : TileCoord) : Statement (.pdec p r c) := by simp [Statement, Instr.calledOnly, encode]
theorem bgtile (i : Cell) (e : Nte) : Statement (.bgtile i e) := by simp [Statement, Instr.calledOnly, encode]
theorem objdraw (k : ObjSlot) (o : Obje) : Statement (.objdraw k o) := by simp [Statement, Instr.calledOnly, encode]
theorem txtcell (i : Cell) (e : Txte) : Statement (.txtcell i e) := by simp [Statement, Instr.calledOnly, encode]
theorem bgpal (b : Byte) : Statement (.bgpal b) := by simp [Statement, Instr.calledOnly, encode]
theorem inlatch : Statement .inlatch := by simp [Statement, Instr.calledOnly, encode]
theorem pdect (p : Tile) : Statement (.pdect p) := by simp [Statement, Instr.calledOnly, encode]
theorem pinit (full : FullColours) : Statement (.pinit full) := by simp [Statement, Instr.calledOnly, encode]
theorem plut (h : Hue) (sh : Shade) : Statement (.plut h sh) := by simp [Statement, Instr.calledOnly, encode]
theorem bgwalk : Statement .bgwalk := by simp [Statement, Instr.calledOnly, encode]
theorem objwalk : Statement .objwalk := by simp [Statement, Instr.calledOnly, encode]
theorem txtwalk : Statement .txtwalk := by simp [Statement, Instr.calledOnly, encode]
theorem finit (img : FontImage) : Statement (.finit img) := by simp [Statement, Instr.calledOnly, encode]
theorem fbclr : Statement .fbclr := by simp [Statement, Instr.calledOnly, encode]
theorem fbwr (x y : Nat) (v : Colour) : Statement (.fbwr x y v) := by simp [Statement, Instr.calledOnly, encode]
theorem fbrd (x : Fin 256) (y : Fin 240) : Statement (.fbrd x y) := by simp [Statement, Instr.calledOnly, encode]
theorem blit (b : Blit) : Statement (.blit b) := by simp [Statement, Instr.calledOnly, encode]
theorem compose : Statement .compose := by simp [Statement, Instr.calledOnly, encode]
theorem framesync : Statement .framesync := by simp [Statement, Instr.calledOnly, encode]
theorem halt : Statement .halt := by simp [Statement, Instr.calledOnly, encode]
theorem reset (l : Launch) : Statement (.reset l) := by simp [Statement, Instr.calledOnly, encode]
theorem help : Statement .help := by simp [Statement, Instr.calledOnly, encode]
theorem step : Statement .step := by simp [Statement, Instr.calledOnly, encode]
theorem frame : Statement .frame := by simp [Statement, Instr.calledOnly, encode]
theorem peek (lo hi : Option Nat) : Statement (.peek lo hi) := by simp [Statement, Instr.calledOnly, encode]
theorem dump : Statement .dump := by simp [Statement, Instr.calledOnly, encode]
theorem run : Statement .run := by simp [Statement, Instr.calledOnly, encode]
theorem quit : Statement .quit := by simp [Statement, Instr.calledOnly, encode]

end Sys2Proof.Laws.EncodeSelection
end

