-- ==== Sys2Proof/Laws/Walk.lean ====
section
/-! SUPPORT. The three walkers and the composition seen at one pixel, and the composed state as one record. -/

namespace Sys2Proof.Machine

/-- `BGWALK` seen at one pixel: the entry of its cell paints it (R82). -/
theorem pixel_walkBackground (s : State) (fb : FrameBuffer) (x : Fin 256) (y : Fin 240) :
    (walkBackground s fb).pixel x y = (backgroundColour s x y).or (fb.pixel x y) := by
  unfold walkBackground
  simp only [drawBackgroundCell]
  rw [foldl_pixel (g := fun v i => (blitColour s.pal (backgroundBlit s i (s.nametableEntry i)) x y).or v)
      (fun fb i => pixel_blitInto _ _ _ _ _),
    foldl_once (List.nodup_finRange 960) (List.mem_finRange (cellAt x y))]
  · rfl
  · intro i _ hi v
    rw [blitColour_outside, Option.none_or]
    exact fun h => hi ((inCell_iff i x y).mp h).symm

/-- `TXTWALK` seen at one pixel: the entry of its cell paints it or leaves it (R97). -/
theorem pixel_walkText (s : State) (fb : FrameBuffer) (x : Fin 256) (y : Fin 240) :
    (walkText s fb).pixel x y = (textColour s x y).or (fb.pixel x y) := by
  unfold walkText
  simp only [drawTextCell]
  rw [foldl_pixel (g := fun v i => (blitColour s.pal (textBlit s i (s.textEntry i)) x y).or v)
      (fun fb i => pixel_blitInto _ _ _ _ _),
    foldl_once (List.nodup_finRange 960) (List.mem_finRange (cellAt x y))]
  · rfl
  · intro i _ hi v
    rw [blitColour_outside, Option.none_or]
    exact fun h => hi ((inCell_iff i x y).mp h).symm

/-- `OBJWALK` seen at one pixel: the lowest slot that paints it shows (R88). -/
theorem pixel_walkObjects (s : State) (fb : FrameBuffer) (x : Fin 256) (y : Fin 240) :
    (walkObjects s fb).pixel x y = (objectColour s x y).or (fb.pixel x y) := by
  unfold walkObjects
  simp only [drawObject]
  rw [foldl_pixel (g := fun v k => (blitColour s.pal (objectBlit s (s.objectEntry k)) x y).or v)
      (fun fb i => pixel_blitInto _ _ _ _ _), foldl_reverse_overwrite]
  rfl

/-- A pixel of a composed frame (R104). -/
theorem pixel_compose (s : State) (x : Fin 256) (y : Fin 240) : s.compose.fb.pixel x y
    = (textColour s x y).or ((objectColour s x y).or ((backgroundColour s x y).or (some Colour.black))) := by
  rw [State.compose_fb, pixel_walkText, pixel_walkObjects, pixel_walkBackground, FrameBuffer.pixel_cleared]

/-- The background is opaque: it paints every pixel (R84). -/
theorem backgroundColour_palette (s : State) (x : Fin 256) (y : Fin 240) :
    ∃ h sh, backgroundColour s x y = some (paletteColour s.pal h sh) := by
  have hc := (inCell_iff (cellAt x y) x y).mpr rfl
  unfold backgroundColour
  rw [blitColour_inside (r := ⟨y.val - (cellY (cellAt x y)).val, by omega⟩)
    (c := ⟨x.val - (cellX (cellAt x y)).val, by omega⟩) _ _ (by simp; omega) (by simp; omega), if_neg (by simp)]
  exact ⟨_, _, rfl⟩

/-- A blit paints palette entries only (R103). -/
theorem blitColour_palette {pal : Palette} {b : Blit} {x : Fin 256} {y : Fin 240} {v : Colour}
    (h : blitColour pal b x y = some v) : ∃ hue sh, v = paletteColour pal hue sh := by
  unfold blitColour at h
  split at h
  · split at h
    · cases h
    · cases h
      exact ⟨_, _, rfl⟩
  · cases h

/-- Everything a composition changes: the buffer and what is shown (R104). -/
theorem compose_eq (s : State) : s.compose = { s with fb := s.compose.fb, displayed := some s.compose.fb } := by
  generalize hc : s.compose = t
  have h1 := State.compose_cfg s
  have h2 := State.compose_mem s
  have h3 := State.compose_pal s
  have h4 := State.compose_font s
  have h5 := State.compose_keys s
  have h6 := State.compose_mode s
  have h7 := State.compose_line s
  have h8 := State.compose_dumpFile s
  have h9 := State.compose_dumpOpens s
  have h10 := State.compose_console s
  have h11 := State.compose_displayed s
  have h12 := State.compose_reply s
  have h13 := State.compose_calls s
  have h14 := State.compose_inputs s
  have h15 := State.compose_drawn s
  rw [hc] at *
  cases t
  cases s
  simp_all

end Sys2Proof.Machine
end

