-- ==== Sys2Proof/Laws/Step.lean ====
section
/-! SUPPORT. What a step does in each mode, as equations, and what a stepping command's loop does. -/

namespace Sys2Proof.Machine

/-! ### Steps -/

theorem step_ended {s : State} {e : Ending} (h : s.mode = .ended e) : step s = .next s := by
  unfold step
  rw [h]

theorem step_call {s : State} {sel : Selection} {rest : List Selection} (h : ∀ e, s.mode ≠ .ended e)
    (hc : s.calls = sel :: rest) : step s = select sel { s with calls := rest } := by
  unfold step
  rw [hc]
  split
  · exact absurd ‹_› (h _)
  · next heq _ => cases heq; rfl
  · next heq _ => cases heq

theorem step_turn {s : State} (h : ∀ e, s.mode ≠ .ended e) (hc : s.calls = []) :
    step s = turn s.nextMoment.1 s.nextMoment.2 := by
  unfold step
  rw [hc]
  split
  · exact absurd ‹_› (h _)
  · next heq _ => cases heq
  · rfl

theorem nextMoment_queued {s : State} {m : Moment} {rest : List Moment} (h : s.inputs = m :: rest) :
    s.nextMoment = (m, { s with inputs := rest }) := by
  unfold State.nextMoment
  rw [h]

theorem nextMoment_free {s : State} (h : s.inputs = []) :
    s.nextMoment = (Config.freeMoment s.drawn, { s with drawn := s.drawn + 1 }) := by
  unfold State.nextMoment
  rw [h]

/-- Taking a moment changes the queue and the counter only. -/
theorem nextMoment_eq (s : State) : ∃ inputs drawn,
    s.nextMoment.2 = { s with inputs := inputs, drawn := drawn } := by
  unfold State.nextMoment
  split <;> exact ⟨_, _, rfl⟩

theorem select_some {sel : Selection} {s : State} {i : Instr} {bs : List Byte}
    (h : decode sel (s.fetch sel) = some (i, bs)) : select sel s = exec i s := by
  unfold select
  rw [h]

theorem select_none {sel : Selection} {s : State} (h : decode sel (s.fetch sel) = none) :
    select sel s = .next (s.unselected sel) := by
  unfold select
  rw [h]

theorem fetch_line (s : State) : s.fetch .line = s.line := rfl

/-- The operations an operator's line can select (R124). -/
theorem decodeLine_cases {line : List Byte} {i : Instr} (h : decodeLine line = some i) :
    i = .help ∨ i = .step ∨ i = .frame ∨ (∃ lo hi, i = .peek lo hi) ∨ i = .dump ∨ i = .run ∨ i = .quit := by
  unfold decodeLine at h
  split at h <;> cases h <;> simp

/-! ### The loop of a stepping command -/

/-- A moment that does not end the command: the inputs stand as it says and the CPU stores (R126, R127). -/
theorem commandCycle_goes_on {want : CpuResult} {m : Moment} (s : State) (h : endsCommand want m = false) :
    s.commandCycle want m = (s.sense m).cpuStores m.cpu.writes := by
  simp only [endsCommand, Bool.or_eq_false_iff, Option.isSome_eq_false_iff, Option.isNone_iff_eq_none,
    decide_eq_false_iff_not] at h
  unfold State.commandCycle
  rw [h.1]
  simp only
  rw [if_neg h.2]

/-- Several moments that do not end the command: the last one's inputs stand, and all their stores have
happened (R126, R127). -/
theorem foldl_commandCycle {want : CpuResult} (ms : List Moment) (s : State)
    (h : ∀ m ∈ ms, endsCommand want m = false) :
    ms.foldl (fun s m => s.commandCycle want m) s = { s with
      keys := (ms.getLast?.map Moment.keys).getD s.keys
      dumpOpens := (ms.getLast?.map Moment.dumpOpens).getD s.dumpOpens
      mem := (ms.flatMap fun m => m.cpu.writes).foldl (fun mem w => mem.write w.1.val w.2) s.mem } := by
  induction ms generalizing s with
  | nil => rfl
  | cons m ms ih =>
    rw [List.foldl_cons, commandCycle_goes_on s (h m (by simp)), ih _ fun m hm => h m (by simp [hm]),
      List.flatMap_cons, List.foldl_append]
    cases ms with
    | nil => rfl
    | cons m' ms =>
      rw [List.getLast?_cons_cons]
      cases hl : (m' :: ms).getLast? with
      | none => simp at hl
      | some l => rfl

/-- The moment that ends the command with the awaited result: one composition, no latch (R109). -/
theorem commandCycle_finishes {want : CpuResult} {m : Moment} (s : State) (hc : m.close = none)
    (hr : m.cpu.result = want) :
    s.commandCycle want m = ((s.sense m).cpuStores m.cpu.writes).compose.enterMonitor := by
  unfold State.commandCycle
  rw [hc]
  simp only
  rw [if_pos hr]

theorem commandLoop_ends {want : CpuResult} {before rest : List Moment} {last : Moment}
    (hb : ∀ m ∈ before, endsCommand want m = false) (hl : endsCommand want last = true) (s : State) :
    commandLoop want (before ++ last :: rest) s
      = { (before.foldl (fun s m => s.commandCycle want m) s).commandCycle want last with inputs := rest } := by
  induction before generalizing s with
  | nil =>
    simp only [List.nil_append, commandLoop, List.foldl_nil]
    rw [if_pos hl]
  | cons m before ih =>
    simp only [List.cons_append, commandLoop, List.foldl_cons]
    rw [hb m (by simp), if_neg (by simp)]
    exact ih (fun m hm => hb m (by simp [hm])) _

theorem commandLoop_waits {want : CpuResult} {ms : List Moment}
    (h : ∀ m ∈ ms, endsCommand want m = false) (s : State) :
    commandLoop want ms s = { ms.foldl (fun s m => s.commandCycle want m) s with inputs := [] } := by
  induction ms generalizing s with
  | nil => rfl
  | cons m ms ih =>
    simp only [commandLoop, List.foldl_cons]
    rw [h m (by simp), if_neg (by simp)]
    exact ih (fun m hm => h m (by simp [hm])) _

/-- A property that every turn of the loop and a change of the queue keep holds when the command returns
or waits. -/
theorem commandLoop_keeps {want : CpuResult} {P : State → Prop} {ms : List Moment}
    (hcycle : ∀ m ∈ ms, ∀ s, P s → P (s.commandCycle want m)) (hqueue : ∀ s q, P s → P { s with inputs := q })
    {s : State} (h : P s) : P (commandLoop want ms s) := by
  induction ms generalizing s with
  | nil => exact hqueue s [] h
  | cons m ms ih =>
    simp only [commandLoop]
    split
    · exact hqueue _ _ (hcycle m (by simp) s h)
    · exact ih (fun m hm => hcycle m (by simp [hm])) (hcycle m (by simp) s h)

end Sys2Proof.Machine
end

