-- ==== Sys2Proof/Tests/Slice0.lean ====
section
/-! SUPPORT. Tests on fixed values, each from the spec's own vectors (95_test_vectors.md) or tables, and the witnesses of the statements' hypotheses. -/

namespace Sys2Proof.Tests
open Sys2Proof.Machine

/-! ### Helpers -/

/-- The reset state with these cells of memory listed. -/
def stateWith (cells : Memory) : State := { State.reset with mem := cells }

/-- The reset state in a mode with these moments queued. -/
def stateAt (mode : Mode) (ms : List Moment) : State := { State.reset with mode := mode, inputs := ms }

/-- A moment in which the CPU gives a result after one store, and the operator types a line. -/
def momentOf (result : CpuResult) (line : List Byte) : Moment :=
  ⟨{ Keys.released with b := true }, ⟨[(0x10, 7)], result⟩, line, true, none⟩

/-- The pattern `PA` of T3. -/
def patternPA : Tile := #v[0xFF, 0xF0, 0xC0, 0, 0xC0, 0, 0xAA, 0, 0x80, 0, 0x40, 0, 0x40, 0, 0x40, 1]

/-- `PA` as background pattern 5 and `BGPAL` = 0x33, the setup of T8. -/
def backgroundSetup : State :=
  stateWith [(0x3950, 0xFF), (0x3951, 0xF0), (0x3952, 0xC0), (0x3954, 0xC0), (0x3956, 0xAA), (0x3958, 0x80),
    (0x395A, 0x40), (0x395C, 0x40), (0x395E, 0x40), (0x395F, 1), (0x3EC0, 0x33)]

/-- Foreground pattern 1 = shade 3 at its top left pixel only, and an object at slot 63 that shows it
at (252, 236) in hue 4. -/
def objectSetup : State :=
  stateWith [(0x3710, 0xC0), (0x3FFC, 0xFC), (0x3FFD, 0xEC), (0x3FFE, 1), (0x3FFF, 4)]

/-- One property of a next state. -/
def leaves (o : Host.Outcome State Fault Refusal) (p : State → Bool) : Bool :=
  match o with
  | .next t => p t
  | _ => false

/-- A pixel's colour, if it has one. -/
def shows (t : State) (x : Fin 256) (y : Fin 240) (c : Colour) : Bool :=
  decide (t.fb.pixel x y = some c)

/-- An image of one colour. -/
def plainImage (width height : Nat) (c : Colour) : FontImage :=
  ⟨width, 255, List.replicate height (List.replicate width c)⟩

/-- A complete launch from an all-zero image. -/
def goodLaunch : Launch :=
  ⟨.contents (List.replicate 65536 0), Config.referenceFull, some (plainImage 128 64 Colour.black), true⟩

/-! ### WellFormed: an ill-formed term for each check -/

theorem test_wf_pinit_channel : (Instr.pinit (Vector.replicate 8 ⟨0, 256, 0⟩)).wellFormed Config.reference = false := by
  decide
theorem test_wf_finit_narrow : (Instr.finit (plainImage 7 64 Colour.black)).wellFormed Config.reference = false := by
  decide
theorem test_wf_finit_short : (Instr.finit (plainImage 128 63 Colour.black)).wellFormed Config.reference = false := by
  decide +kernel
theorem test_wf_finit_ragged :
    (Instr.finit ⟨128, 255, List.replicate 64 []⟩).wellFormed Config.reference = false := by
  decide +kernel
theorem test_wf_fbwr_x : (Instr.fbwr 263 0 Colour.black).wellFormed Config.reference = false := by decide
theorem test_wf_fbwr_y : (Instr.fbwr 0 263 Colour.black).wellFormed Config.reference = false := by decide
theorem test_wf_fbwr_colour : (Instr.fbwr 0 0 ⟨0, 0, 256⟩).wellFormed Config.reference = false := by decide
theorem test_wf_reset_missing :
    (Instr.reset { goodLaunch with image := .missingArgument }).wellFormed Config.reference = false := by decide
theorem test_wf_reset_unreadable :
    (Instr.reset { goodLaunch with image := .unreadable }).wellFormed Config.reference = false := by decide
theorem test_wf_reset_short :
    (Instr.reset { goodLaunch with image := .contents [0] }).wellFormed Config.reference = false := by decide
theorem test_wf_reset_colours : (Instr.reset { goodLaunch with full := Vector.replicate 8 ⟨300, 0, 0⟩ }).wellFormed
    Config.reference = false := by decide +kernel
theorem test_wf_reset_no_font :
    (Instr.reset { goodLaunch with font := none }).wellFormed Config.reference = false := by decide +kernel
theorem test_wf_reset_bad_font : (Instr.reset { goodLaunch with font := some ⟨8, 255, []⟩ }).wellFormed
    Config.reference = false := by decide +kernel
theorem test_wf_reset_presentation :
    (Instr.reset { goodLaunch with presentation := false }).wellFormed Config.reference = false := by
  decide +kernel
theorem test_wf_peek_second_only : (Instr.peek none (some 3)).wellFormed Config.reference = false := by decide

/-! ### Decoding: words written out from the encodings of R51 to R56, R59, R64 and R124 -/

/-- V-PDEC-1's record, selected at row 0, column 3. -/
theorem test_decode_pdec :
    decode (.pixel .foreground 2 0 3) [0b00011011, 0, 0, 0, 0, 0, 0, 0, 0, 0, 0, 0, 0, 0, 0, 0, 9]
      = some (.pdec #v[0x1B, 0, 0, 0, 0, 0, 0, 0, 0, 0, 0, 0, 0, 0, 0, 0] 0 3, [9]) := by decide
theorem test_decode_pdect :
    decode (.tile .background 31) [0xFF, 0xF0, 0xC0, 0, 0xC0, 0, 0xAA, 0, 0x80, 0, 0x40, 0, 0x40, 0, 0x40, 1]
      = some (.pdect patternPA, []) := by decide
theorem test_decode_tile_too_short : decode (.tile .background 0) (List.replicate 15 0) = none := by decide
/-- `NTE` of R52: hsel 1, hflip 0, vflip 1, pat 00110. -/
theorem test_decode_bgtile :
    decode (.nametable 959) [0b10100110] = some (.bgtile 959 ⟨true, false, true, 6⟩, []) := by decide
/-- V-BG-2's byte. -/
theorem test_decode_bgtile_hflip :
    decode (.nametable 1) [0x45] = some (.bgtile 1 ⟨false, true, false, 5⟩, []) := by decide
/-- `OBJE` of R53: x 100, y 104, hflip 0, vflip 1, pat 10001, hue 110. -/
theorem test_decode_objdraw : decode (.object 5) [0b01100100, 0b01101000, 0b00110001, 0b00000110]
    = some (.objdraw 5 ⟨100, 104, false, true, 17, 6⟩, []) := by decide
/-- V-OBJ-6: bit 7 of `pattern_config` and bits 7:3 of `color` are ignored. -/
theorem test_decode_objdraw_unnamed : decode (.object 9) [0x64, 0x64, 0x83, 0xFC]
    = some (.objdraw 9 ⟨100, 100, false, false, 3, 4⟩, []) := by decide
/-- `TXTE` of R54: tsel 0, glyph 1000001. -/
theorem test_decode_txtcell :
    decode (.text 33) [0b01000001] = some (.txtcell 33 ⟨false, 0x41⟩, []) := by decide
theorem test_decode_txtcell_set : decode (.text 2) [0x81] = some (.txtcell 2 ⟨true, 1⟩, []) := by decide
theorem test_decode_bgpal : decode .palette [0b00110011] = some (.bgpal 0x33, []) := by decide
/-- `CTRL` of R56 as software decodes it: A, Start and Left (V-IN-5). -/
theorem test_decode_ctrl :
    Keys.ofByte 0b10010010 = { Keys.released with a := true, start := true, left := true } := by decide
theorem test_decode_events : decode (.event .frameSync) [] = some (.framesync, []) ∧
    decode (.event .halt) [] = some (.halt, []) ∧ decode (.event .continuing) [] = none ∧
    decode (.event .instructionBoundary) [] = none := by decide
theorem test_decode_calls : decode (.call .inlatch) [] = some (.inlatch, []) ∧
    decode (.call (.pinit Config.referenceFull)) [] = some (.pinit Config.referenceFull, []) ∧
    decode (.call (.plut 6 1)) [] = some (.plut 6 1, []) ∧
    decode (.call .bgwalk) [] = some (.bgwalk, []) ∧ decode (.call .objwalk) [] = some (.objwalk, []) ∧
    decode (.call .txtwalk) [] = some (.txtwalk, []) ∧
    decode (.call (.finit ⟨0, 0, []⟩)) [] = some (.finit ⟨0, 0, []⟩, []) := by decide
theorem test_decode_calls_frame : decode (.call .fbclr) [] = some (.fbclr, []) ∧
    decode (.call (.fbwr 262 5 ⟨1, 2, 3⟩)) [] = some (.fbwr 262 5 ⟨1, 2, 3⟩, []) ∧
    decode (.call (.fbrd 255 239)) [] = some (.fbrd 255 239, []) ∧
    decode (.call (.blit ⟨patternGrid patternPA, 1, 2, 3, true, false, true⟩)) []
      = some (.blit ⟨patternGrid patternPA, 1, 2, 3, true, false, true⟩, []) ∧
    decode (.call .compose) [] = some (.compose, []) ∧
    decode (.call (.reset ⟨.unreadable, Config.referenceFull, none, true⟩)) []
      = some (.reset ⟨.unreadable, Config.referenceFull, none, true⟩, []) := by decide
/-- An operation that its bytes select is not called. -/
theorem test_decode_call_refused : decode (.call .halt) [] = none ∧ decode (.call .quit) [] = none := by decide
/-- The first characters of R124's table: h, s, f, d, r, q. -/
theorem test_decode_words : decode .line [0x68] = some (.help, []) ∧ decode .line [0x73] = some (.step, []) ∧
    decode .line [0x66] = some (.frame, []) ∧ decode .line [0x64] = some (.dump, []) ∧
    decode .line [0x72] = some (.run, []) ∧ decode .line [0x71] = some (.quit, []) := by decide
/-- V-MON-2, V-MON-6: "st" and "stop" are `step`. -/
theorem test_decode_step_words : decode .line [0x73, 0x74] = some (.step, []) ∧
    decode .line [0x73, 0x74, 0x6F, 0x70] = some (.step, []) := by decide
/-- V-MON-4, V-MON-5: "zzz" and the empty line are unrecognized. -/
theorem test_decode_unrecognized :
    decode .line [0x7A, 0x7A, 0x7A] = none ∧ decode .line [] = none := by decide
/-- S7: "peek $10 $1F". -/
theorem test_decode_peek_hex :
    decode .line [0x70, 0x65, 0x65, 0x6B, 0x20, 0x24, 0x31, 0x30, 0x20, 0x24, 0x31, 0x46]
      = some (.peek (some 0x10) (some 0x1F), []) := by decide
/-- S9: "peek 16 31", and "peek" without an operand. -/
theorem test_decode_peek_decimal :
    decode .line [0x70, 0x65, 0x65, 0x6B, 0x20, 0x31, 0x36, 0x20, 0x33, 0x31]
      = some (.peek (some 16) (some 31), []) ∧
    decode .line [0x70, 0x65, 0x65, 0x6B] = some (.peek none none, []) := by decide
/-- V-NUM-1 to V-NUM-3: "$1A", "%1010", "26". -/
theorem test_parse_numbers : parseNum [0x24, 0x31, 0x41] = (some 26, []) ∧
    parseNum [0x25, 0x31, 0x30, 0x31, 0x30] = (some 10, []) ∧ parseNum [0x32, 0x36] = (some 26, []) := by decide
/-- "$" alone is a missing operand (R130). -/
theorem test_parse_no_digits : parseNum [0x24] = (none, []) := by decide

/-! ### The host's table words -/

theorem test_table_words : decodeTableWord 8 0x68 = some .help ∧ decodeTableWord 8 0x73 = some .step ∧
    decodeTableWord 8 0x66 = some .frame ∧ decodeTableWord 8 0x70 = some (.peek none none) ∧
    decodeTableWord 8 0x64 = some .dump ∧ decodeTableWord 8 0x72 = some .run ∧
    decodeTableWord 8 0x71 = some .quit := by decide
theorem test_table_records :
    decodeTableWord 8 0x1B = some (.pdec #v[0x1B, 0, 0, 0, 0, 0, 0, 0, 0, 0, 0, 0, 0, 0, 0, 0] 0 0) ∧
    decodeTableWord 32 0xFF83ECFC = some (.objdraw 0 ⟨252, 236, false, false, 3, 7⟩) ∧
    decodeTableWord 16 0 = none := by decide
theorem test_table_word_runs :
    leaves (step (State.reset.withFetchWord 8 0x71)) (fun t => decide (t.mode = .ended .quit)) = true := by
  decide

/-! ### Meanings on the spec's vectors -/

/-- V-PDEC-1: P[0] = 0x1B gives 0, 1, 2, 3. -/
theorem test_pdec_pair_order : leaves (exec (.pdec #v[0x1B, 0, 0, 0, 0, 0, 0, 0, 0, 0, 0, 0, 0, 0, 0, 0] 0 2) State.reset)
    (fun t => decide (t.reply = .shade 2)) = true := by decide
/-- V-PDEC-6: P[9] = 0x24, row 4 column 5 is 2. -/
theorem test_pdec_second_byte :
    leaves (exec (.pdec #v[0, 0, 0, 0, 0, 0, 0, 0, 0, 0x24, 0, 0, 0, 0, 0, 0] 4 5) State.reset)
      (fun t => decide (t.reply = .shade 2)) = true := by decide
/-- V-PDEC-3. -/
theorem test_pdect_pa : leaves (exec (.pdect patternPA) State.reset) (fun t => decide (t.reply = .grid
    #v[#v[3, 3, 3, 3, 3, 3, 0, 0], #v[3, 0, 0, 0, 0, 0, 0, 0], #v[3, 0, 0, 0, 0, 0, 0, 0],
       #v[2, 2, 2, 2, 0, 0, 0, 0], #v[2, 0, 0, 0, 0, 0, 0, 0], #v[1, 0, 0, 0, 0, 0, 0, 0],
       #v[1, 0, 0, 0, 0, 0, 0, 0], #v[1, 0, 0, 0, 0, 0, 0, 1]])) = true := by decide
/-- V-PAL-10, shade 1 and shade 2. -/
theorem test_pinit_floor : leaves (exec (.pinit (Vector.replicate 8 ⟨2, 254, 128⟩)) State.reset) (fun t =>
    decide (paletteColour t.pal 4 1 = ⟨0, 84, 42⟩) && decide (paletteColour t.pal 4 2 = ⟨1, 169, 85⟩)) = true := by
  decide
/-- V-PAL-12. -/
theorem test_plut_reference : leaves (exec (.plut 6 1) State.reset)
    (fun t => decide (t.reply = .colour ⟨85, 85, 0⟩)) = true := by decide
/-- V-BG-2 at cell 0: (2, 0) and (3, 3). -/
theorem test_bgtile_hflip : leaves (exec (.bgtile 0 ⟨false, true, false, 5⟩) backgroundSetup)
    (fun t => shows t 2 0 ⟨0, 255, 255⟩ && shows t 3 3 ⟨0, 0, 0⟩) = true := by decide +kernel
/-- V-BG-4 at cell 959, the last: (7, 7) and (0, 0) of the cell. -/
theorem test_bgtile_both_flips : leaves (exec (.bgtile 959 ⟨true, true, true, 5⟩) backgroundSetup)
    (fun t => shows t 255 239 ⟨255, 255, 0⟩ && shows t 248 232 ⟨85, 85, 0⟩) = true := by decide +kernel
/-- BGPAL = 0x33: hue0 3, hue1 6 (T8). -/
theorem test_bgpal_hues : leaves (exec (.bgpal 0x33) State.reset)
    (fun t => decide (t.reply = .hues 3 6)) = true := by decide
/-- V-OBJ-3: clipped at the bottom right corner, no wrap. -/
theorem test_objdraw_clips : leaves (exec (.objdraw 9 ⟨252, 236, false, false, 1, 4⟩)
    { objectSetup with mem := (objectSetup.mem.writeBytes 0x3710 (List.replicate 16 0xFF)) })
    (fun t => shows t 255 239 ⟨255, 0, 0⟩ && decide (t.fb.pixel 0 236 = none)
      && decide (t.fb.pixel 252 0 = none)) = true := by decide +kernel
/-- V-OBJ-5's transparency: where the pattern's shade is 0 the pixel keeps its value. -/
theorem test_objdraw_transparent : leaves (exec (.objdraw 9 ⟨10, 20, true, true, 1, 4⟩) objectSetup)
    (fun t => shows t 17 27 ⟨255, 0, 0⟩ && decide (t.fb.pixel 10 20 = none)) = true := by decide +kernel
/-- V-TXT-1: the diagonal of glyph 0x41 in white. -/
theorem test_txtcell_diagonal : leaves (exec (.txtcell 33 ⟨true, 0x41⟩) State.reset)
    (fun t => shows t 15 15 ⟨255, 255, 255⟩ && decide (t.fb.pixel 14 15 = none)) = true := by decide +kernel
/-- V-TXT-4: glyph 1 in the black of hue 0 is drawn. -/
theorem test_txtcell_black : leaves (exec (.txtcell 0 ⟨false, 1⟩) State.reset)
    (fun t => shows t 7 7 ⟨0, 0, 0⟩) = true := by decide +kernel
/-- V-FB-1. -/
theorem test_fbclr_corner : leaves (exec .fbclr State.reset) (fun t => shows t 255 239 ⟨0, 0, 0⟩) = true := by
  decide +kernel
/-- V-FB-2. -/
theorem test_fbwr_corner : leaves (exec (.fbwr 255 239 ⟨1, 2, 3⟩) State.reset)
    (fun t => shows t 255 239 ⟨1, 2, 3⟩) = true := by decide +kernel
/-- V-FB-4: no wrap into the same or the next row. -/
theorem test_fbwr_no_wrap : leaves (exec (.fbwr 256 5 ⟨1, 2, 3⟩) State.reset)
    (fun t => decide (t.fb.pixel 0 5 = none) && decide (t.fb.pixel 0 6 = none)) = true := by decide +kernel
theorem test_fbrd_written : leaves (exec (.fbrd 3 4) (State.reset.setFb FrameBuffer.cleared))
    (fun t => decide (t.reply = .colour ⟨0, 0, 0⟩)) = true := by decide +kernel
/-- S3: with both flips pattern pixel (0, 0) lands at (x + 7, y + 7). -/
theorem test_blit_both_flips : leaves (exec (.blit ⟨patternGrid patternPA, 10, 20, 6, true, true, true⟩) State.reset)
    (fun t => shows t 17 27 ⟨255, 255, 0⟩ && decide (t.fb.pixel 11 27 = none)) = true := by decide +kernel
/-- V-IN-5 and V-IN-9. -/
theorem test_inlatch_packs : leaves (exec .inlatch { stateWith [(0x7002, 0xFF), (0x7003, 0x5A)] with
    keys := { Keys.released with a := true, start := true, left := true } })
    (fun t => decide (t.mem = [(0x7002, 0x92), (0x7003, 0x5A)])) = true := by decide
/-- V-IN-8: the whole byte is replaced. -/
theorem test_inlatch_none : leaves (exec .inlatch (stateWith [(0x7002, 0xFF)]))
    (fun t => decide (t.mem = [])) = true := by decide
theorem test_finit_white_on : (loadFont (fun _ _ _ => false) ⟨16, 255,
    List.replicate 8 (List.replicate 8 ⟨255, 255, 254⟩ ++ List.replicate 8 ⟨255, 255, 255⟩)⟩)[1][7][7] = true := by
  decide +kernel
theorem test_finit_near_white_off : (loadFont (fun _ _ _ => false) ⟨16, 255,
    List.replicate 8 (List.replicate 8 ⟨255, 255, 254⟩ ++ List.replicate 8 ⟨255, 255, 255⟩)⟩)[0][7][7] = false := by
  decide +kernel
theorem test_halt_enters_monitor : leaves (exec .halt State.reset)
    (fun t => decide (t.mode = .prompt) && decide (t.displayed = none)) = true := by decide
theorem test_help_prints : leaves (exec .help State.reset)
    (fun t => decide (t.console = [.usage]) && decide (t.mode = .prompt)) = true := by decide
theorem test_run_leaves : leaves (exec .run (stateAt .prompt [])) (fun t => decide (t.mode = .running)) = true := by
  decide
theorem test_quit_ends : leaves (exec .quit (stateAt .prompt []))
    (fun t => decide (t.mode = .ended .quit)) = true := by decide
/-- S7: "must print 16 consecutive addresses". -/
theorem test_peek_sixteen : leaves (exec (.peek (some 0x10) (some 0x1F)) State.reset)
    (fun t => decide (t.console.length = 16)) = true := by decide
/-- V-NUM-10: one address. -/
theorem test_peek_one : leaves (exec (.peek (some 0x3EC0) none) backgroundSetup)
    (fun t => decide (t.console = [.memoryByte 0x3EC0 0x33])) = true := by decide
theorem test_dump_fails_politely : leaves (exec .dump { State.reset with dumpOpens := false })
    (fun t => decide (t.console = [.dumpOpenFailed]) && decide (t.dumpFile = none)) = true := by decide
theorem test_reset_missing_image : leaves (exec (.reset { goodLaunch with image := .missingArgument }) State.reset)
    (fun t => decide (t.mode = .ended (.startup .missingArgument))) = true := by decide
/-- The CPU's stores have happened when `step` waits; its other results are ignored (R126). -/
theorem test_step_waits : leaves (exec .step (stateAt .prompt [momentOf .frameSync []]))
    (fun t => decide (t.mode = .executingStep) && decide (t.mem = [(0x10, 7)])) = true := by decide
theorem test_frame_waits : leaves (exec .frame (stateAt .prompt [momentOf .instructionBoundary []]))
    (fun t => decide (t.mode = .executingFrame) && decide (t.mem = [(0x10, 7)])) = true := by decide
/-- S4 and R88: of two objects on one pixel the lower slot shows. -/
theorem test_objwalk_lower_slot : objectColour
    (stateWith [(0x3700, 0xC0), (0x3F03, 4), (0x3F07, 1)]) 0 0 = some ⟨255, 0, 0⟩ := by decide +kernel
/-- T14, cell 959. -/
theorem test_bgwalk_last_cell :
    backgroundColour { backgroundSetup with mem := backgroundSetup.mem.write 0x3EBF 0x85 } 253 232
      = some ⟨255, 255, 0⟩ := by decide +kernel
/-- V-TXT-3 at cell 959. -/
theorem test_txtwalk_last_cell : textColour (stateWith [(0x43BF, 0x81)]) 255 239 = some ⟨255, 255, 255⟩ := by
  decide +kernel

/-! ### Witnesses: a concrete input for the hypotheses of each statement -/

theorem witness_DecodeEncodeRoundTrip :
    (Instr.fbwr 262 262 ⟨255, 255, 255⟩).wellFormed Config.reference = true ∧
    (Instr.peek (some 0) (some 65536)).wellFormed Config.reference = true ∧
    (Instr.pinit Config.referenceFull).wellFormed Config.reference = true := by decide
theorem witness_EveryRecordValueDecodes : ([0xFF, 0xFF, 0xFF, 0xFF] : List Byte).length = 4 := by decide
theorem witness_UnnamedBitsAreIgnored :
    (0xFF : Byte).toNat % 128 = (0x7F : Byte).toNat % 128 ∧ (0xFF : Byte).toNat % 8 = (0x07 : Byte).toNat % 8 ∧
    State.reset.cfg.hue0Lsb = 0 ∧ State.reset.cfg.hue1Lsb = 3 ∧
    (0xF3 : Byte).toNat % 64 = (0x33 : Byte).toNat % 64 := by decide
/-- Two memories that differ in unnamed bits only: BGPAL 0x33 and 0xF3, slot 63's bytes 0x83 0xFF and 0x03 0x07. -/
theorem witness_UnnamedBitsAreIgnored_memories :
    let s := stateWith [(0x3EC0, 0x33), (0x3FFE, 0x83), (0x3FFF, 0xFF)]
    let t := stateWith [(0x3EC0, 0xF3), (0x3FFE, 0x03), (0x3FFF, 0x07)]
    s.mem ≠ t.mem ∧ s.cfg.disjoint ∧ s.cfg.hue0Lsb = 0 ∧ s.cfg.hue1Lsb = 3 ∧ t = { s with mem := t.mem } ∧
    (∀ a : Nat, a ≠ s.cfg.bgpalAddr.val →
      (∀ k : ObjSlot, a ≠ s.cfg.objBase.val + 4 * k.val + 2 ∧ a ≠ s.cfg.objBase.val + 4 * k.val + 3) →
      s.mem.read a = t.mem.read a) ∧
    (s.mem.read s.cfg.bgpalAddr.val).toNat % 64 = (t.mem.read s.cfg.bgpalAddr.val).toNat % 64 ∧
    ∀ k : ObjSlot,
      (s.mem.read (s.cfg.objBase.val + 4 * k.val + 2)).toNat % 128
        = (t.mem.read (s.cfg.objBase.val + 4 * k.val + 2)).toNat % 128 ∧
      (s.mem.read (s.cfg.objBase.val + 4 * k.val + 3)).toNat % 8
        = (t.mem.read (s.cfg.objBase.val + 4 * k.val + 3)).toNat % 8 := by
  refine ⟨by decide, by decide, rfl, rfl, rfl, fun a hb ho => ?_, by decide, by decide +kernel⟩
  have h1 : (0x3EC0 : Nat) ≠ a := Ne.symm hb
  have h2 : (0x3FFE : Nat) ≠ a := Ne.symm (ho 63).1
  have h3 : (0x3FFF : Nat) ≠ a := Ne.symm (ho 63).2
  simp only [stateWith, Memory.read, if_neg h1, if_neg h2, if_neg h3]
theorem witness_NumericLiteral_hex :
    (16, [(0x24 : Byte)]) ∈ [(16, [(0x24 : Byte)]), (2, [(0x25 : Byte)]), (10, ([] : List Byte))] ∧
    (∀ ch ∈ ([0x39, 0x41, 0x66] : List Byte), (digitValue 16 ch).isSome = true) ∧
    (∀ ch ∈ ([0x67, 0x30] : List Byte).head?, digitValue 16 ch = none) := by decide
theorem witness_NumericLiteral_binary :
    (2, [(0x25 : Byte)]) ∈ [(16, [(0x24 : Byte)]), (2, [(0x25 : Byte)]), (10, ([] : List Byte))] ∧
    (∀ ch ∈ ([0x31, 0x30] : List Byte), (digitValue 2 ch).isSome = true) ∧
    (∀ ch ∈ ([0x32] : List Byte).head?, digitValue 2 ch = none) := by decide
theorem witness_NumericLiteral_decimal :
    (10, ([] : List Byte)) ∈ [(16, [(0x24 : Byte)]), (2, [(0x25 : Byte)]), (10, ([] : List Byte))] ∧
    (∀ ch ∈ ([0x30, 0x39] : List Byte), (digitValue 10 ch).isSome = true) ∧
    (∀ ch ∈ ([0x20] : List Byte).head?, digitValue 10 ch = none) ∧
    (∀ ch ∈ ([] : List Byte).head?, digitValue 10 ch = none) := by decide
theorem witness_PaletteInvariants : Config.referenceFull.within 255 = true ∧ (0 : Shade) ≤ 3 ∧
    (3 : Shade) ≤ 3 := by decide
theorem witness_TablesChangeOnlyAtReset_step : (stateAt .running [momentOf .halt []]).calls = [] ∧
    ∃ t, step (stateAt .running [momentOf .halt []]) = .next t := ⟨rfl, _, rfl⟩
theorem witness_TablesChangeOnlyAtReset : ∃ t, exec .halt State.reset = .next t ∧
    (∀ l, Instr.halt ≠ .reset l) ∧ (∀ full, Instr.halt ≠ .pinit full) ∧ (∀ img, Instr.halt ≠ .finit img) :=
  ⟨_, rfl, by simp, by simp, by simp⟩
theorem witness_TablesChangeOnlyAtReset_pinit :
    ∃ t, exec (.pinit Config.referenceFull) State.reset = .next t ∧
      (∀ l, Instr.pinit Config.referenceFull ≠ .reset l) ∧
      (∀ img, Instr.pinit Config.referenceFull ≠ .finit img) :=
  ⟨_, rfl, by simp, by simp⟩
theorem witness_CellsTileTheScreen : (cellX 959).val ≤ (255 : Fin 256).val ∧
    (255 : Fin 256).val ≤ (cellX 959).val + 7 ∧ (cellY 959).val ≤ (239 : Fin 240).val ∧
    (239 : Fin 240).val ≤ (cellY 959).val + 7 ∧ cellAt 255 239 = 959 ∧ (958 : Cell) ≠ 959 := by decide
theorem witness_RecordAddresses :
    (959 : Cell).val = 32 * (29 : Fin 30).val + (31 : Fin 32).val ∧
    (0 : Cell).val = 32 * (0 : Fin 30).val + (0 : Fin 32).val := by decide
theorem witness_BgtileDrawsItsCell_outside : cellAt 248 232 = 959 ∧ cellAt 247 239 ≠ 959 := by decide
theorem witness_BgtileDrawsItsCell_inside :
    ((255 : Fin 256).val = 8 * ((959 : Cell).val % 32) + (7 : TileCoord).val ∧
      (239 : Fin 240).val = 8 * ((959 : Cell).val / 32) + (7 : TileCoord).val) ∧
    ((0 : Fin 256).val = 8 * ((0 : Cell).val % 32) + (0 : TileCoord).val ∧
      (0 : Fin 240).val = 8 * ((0 : Cell).val / 32) + (0 : TileCoord).val) := by decide
/-- An object at (252, 236) and one at (255, 0): the last pixel inside, the first pixel outside. -/
theorem witness_ObjdrawSkipsShadeZeroAndClips :
    ((255 : Fin 256).val = (252 : Fin 256).val + (3 : TileCoord).val ∧
      (239 : Fin 240).val = (236 : Fin 256).val + (3 : TileCoord).val) ∧
    ¬((252 : Fin 256).val ≤ (251 : Fin 256).val ∧ (251 : Fin 256).val ≤ (252 : Fin 256).val + 7 ∧
      (236 : Fin 256).val ≤ (239 : Fin 240).val ∧ (239 : Fin 240).val ≤ (236 : Fin 256).val + 7) := by decide
theorem witness_ParkedObjectDrawsNothing : 240 ≤ (⟨0, 240, false, false, 0, 0⟩ : Obje).y.val ∧
    240 ≤ (⟨255, 255, true, true, 31, 7⟩ : Obje).y.val := by decide
theorem witness_LowestSlotWins_last :
    blitColour objectSetup.pal (objectBlit objectSetup (objectSetup.objectEntry 63)) 252 236
      = some ⟨255, 0, 0⟩ ∧
    ∀ j : ObjSlot, j < 63 →
      blitColour objectSetup.pal (objectBlit objectSetup (objectSetup.objectEntry j)) 252 236 = none := by
  decide +kernel
theorem witness_LowestSlotWins_first :
    blitColour objectSetup.pal (objectBlit (stateWith [(0x3700, 0xC0), (0x3F03, 4)])
      ((stateWith [(0x3700, 0xC0), (0x3F03, 4)]).objectEntry 0)) 0 0 = some ⟨255, 0, 0⟩ ∧
    ∀ j : ObjSlot, ¬(j < 0) := by decide +kernel
theorem witness_LowestSlotWins_none : ∀ i : ObjSlot,
    blitColour State.reset.pal (objectBlit State.reset (State.reset.objectEntry i)) 0 0 = none := by decide +kernel
theorem witness_TxtwalkOverlaysText : (255 : Fin 256).val % 8 = (7 : TileCoord).val ∧
    (239 : Fin 240).val % 8 = (7 : TileCoord).val ∧
    (⟨true, 1⟩ : Txte) = Txte.ofByte ((stateWith [(0x43BF, 0x81)]).mem.read
      ((stateWith [(0x43BF, 0x81)]).cfg.txtBase.val + 32 * ((239 : Fin 240).val / 8) + (255 : Fin 256).val / 8)) := by
  decide
theorem witness_FinitScansBlocks : (plainImage 128 64 ⟨255, 255, 255⟩).complete = true := by decide +kernel
/-- One block to a row of blocks, the narrowest complete image. -/
theorem witness_FinitScansBlocks_narrow : (plainImage 8 1024 ⟨0, 255, 255⟩).complete = true := by decide +kernel
theorem witness_FbwrWritesOnePixelOrNone : ((255 : Fin 256).val = 255 ∧ (239 : Fin 240).val = 239) ∧
    ((254 : Fin 256).val ≠ 255 ∨ (239 : Fin 240).val ≠ 239) ∧ (256 ≤ 256 ∨ 240 ≤ 0) ∧ (256 ≤ 0 ∨ 240 ≤ 240) := by
  decide
theorem witness_FbrdReturnsPixel : State.reset.fb.pixel 255 239 = none ∧
    (State.reset.setFb FrameBuffer.cleared).fb.pixel 255 239 = some ⟨0, 0, 0⟩ := by decide +kernel
theorem witness_BlitCopiesMirroredTile :
    ((255 : Fin 256).val = (248 : Fin 256).val + (7 : TileCoord).val ∧
      (239 : Fin 240).val = (239 : Fin 256).val + (0 : TileCoord).val) ∧
    ¬((248 : Fin 256).val ≤ (247 : Fin 256).val ∧ (247 : Fin 256).val ≤ (248 : Fin 256).val + 7 ∧
      (239 : Fin 256).val ≤ (239 : Fin 240).val ∧ (239 : Fin 240).val ≤ (239 : Fin 256).val + 7) := by decide
/-- Two different memories that agree in the six video regions. -/
theorem witness_PictureDependsOnVideoRegionsOnly : State.reset.mem ≠ (stateWith [(0x8000, 1)]).mem ∧
    State.reset.cfg = (stateWith [(0x8000, 1)]).cfg ∧ State.reset.pal = (stateWith [(0x8000, 1)]).pal ∧
    State.reset.font = (stateWith [(0x8000, 1)]).font ∧
    ∀ (a : Nat) (region : Nat × Nat), region ∈ State.reset.cfg.regions.take 6 → region.1 ≤ a →
      a < region.1 + region.2 → State.reset.mem.read a = (stateWith [(0x8000, 1)]).mem.read a := by
  refine ⟨by decide, rfl, rfl, rfl, fun a region hr _ ha => ?_⟩
  have hb : ∀ q ∈ State.reset.cfg.regions.take 6, q.1 + q.2 ≤ 0x8000 := by decide
  have hne : (0x8000 : Nat) ≠ a := by have := hb region hr; omega
  have h : (stateWith [(0x8000, 1)]).mem.read a = if (0x8000 : Nat) = a then 1 else 0 := rfl
  rw [h, if_neg hne]
  rfl
theorem witness_InlatchStoresOneBitPerKey : State.reset.mem.wf = true ∧
    (0x7003 : Addr) ≠ State.reset.cfg.ctrl1Addr := by decide
theorem witness_SecondControllerNeverTouched : State.reset.cfg.disjoint ∧
    Instr.inlatch ∈ [Instr.inlatch, Instr.framesync] ∧ Instr.framesync ∈ [Instr.inlatch, Instr.framesync] := by
  decide
theorem witness_LatchOrderCannotChangePicture : State.reset.cfg.disjoint := by decide
theorem witness_FramesyncComposesThenLatches : (0x7003 : Addr) ≠ State.reset.cfg.ctrl1Addr := by decide
/-- One witness for each of the four step results. -/
theorem witness_DriverDispatchesStepResult (r : CpuResult) :
    (stateAt .running [momentOf r []]).mode = .running ∧ (stateAt .running [momentOf r []]).calls = [] ∧
    (stateAt .running [momentOf r []]).nextMoment = (momentOf r [], stateAt .running []) ∧
    (momentOf r []).close = none := ⟨rfl, rfl, rfl, rfl⟩
theorem witness_StepRunsDecodedOperation_call :
    (∀ e, ({ backgroundSetup with calls := [.palette] }).mode ≠ .ended e) ∧
    decode .palette (({ backgroundSetup with calls := [.palette] }).fetch .palette) = some (.bgpal 0x33, []) := by
  exact ⟨fun _ h => (nomatch h), by decide⟩
theorem witness_StepRunsDecodedOperation_line :
    (stateAt .prompt [momentOf .halt [0x71]]).mode = .prompt ∧ (stateAt .prompt [momentOf .halt [0x71]]).calls = [] ∧
    (stateAt .prompt [momentOf .halt [0x71]]).nextMoment = (momentOf .halt [0x71], stateAt .prompt []) ∧
    (momentOf .halt [0x71]).close = none ∧ decode .line (momentOf .halt [0x71]).line = some (.quit, []) :=
  ⟨rfl, rfl, rfl, rfl, by decide⟩
theorem witness_StepRunsDecodedOperation_queue :
    (stateAt .prompt [momentOf .halt []]).inputs = momentOf .halt [] :: [] ∧ State.reset.inputs = [] := ⟨rfl, rfl⟩
theorem witness_PlacedTableWordRunsNext : State.reset.mem.wf = true ∧ decodeTableWord 8 0x68 = some .help ∧
    decodeTableWord 32 0xFF = some (.objdraw 0 ⟨255, 0, false, false, 0, 0⟩) ∧
    (decodeTableWord 8 0).isSome = true := by decide
theorem witness_EndOfProcessIsFinal : (stateAt (.ended .quit) []).mode = .ended .quit ∧
    ∀ mode ∈ [Mode.running, .prompt, .executingStep, .executingFrame],
      (∀ e, (stateAt mode [{ momentOf .halt [] with close := some .windowClose }]).mode ≠ .ended e) ∧
      (stateAt mode [{ momentOf .halt [] with close := some .windowClose }]).calls = [] ∧
      (stateAt mode [{ momentOf .halt [] with close := some .windowClose }]).nextMoment
        = ({ momentOf .halt [] with close := some .windowClose }, stateAt mode []) := by
  refine ⟨rfl, fun mode hm => ⟨fun e => ?_, rfl, rfl⟩⟩
  rintro rfl
  simp at hm
theorem witness_DisplayStaysBetweenFrameSyncs : (stateAt .running [momentOf .instructionBoundary []]).mode = .running ∧
    (stateAt .running [momentOf .instructionBoundary []]).calls = [] ∧
    (stateAt .running [momentOf .instructionBoundary []]).nextMoment
      = (momentOf .instructionBoundary [], stateAt .running []) ∧
    (momentOf .instructionBoundary []).cpu.result ≠ .frameSync := ⟨rfl, rfl, rfl, by decide⟩
theorem witness_ResetLoadsImageAndTables : ∃ bytes img, goodLaunch.image = .contents bytes ∧ bytes.length = 65536 ∧
    goodLaunch.font = some img ∧ goodLaunch.presentation = true :=
  ⟨_, _, rfl, List.length_replicate, rfl, rfl⟩
theorem witness_FailedStartNeverRuns : ({ goodLaunch with image := .missingArgument }).image = .missingArgument ∧
    ({ goodLaunch with image := .unreadable }).image = .unreadable ∧
    ({ goodLaunch with font := none }).font = none ∧ ({ goodLaunch with presentation := false }).presentation = false :=
  ⟨rfl, rfl, rfl, rfl⟩
/-- The longest image that is too short. -/
theorem witness_FailedStartNeverRuns_short :
    ∃ bytes, ({ goodLaunch with image := .contents (List.replicate 65535 0) }).image = .contents bytes ∧
      bytes.length < 65536 :=
  ⟨_, rfl, by rw [List.length_replicate]; decide⟩
theorem witness_LongImageIsCutOrRejected :
    ∃ bytes, ({ goodLaunch with image := .contents (List.replicate 65537 0) }).image = .contents bytes ∧
      65536 < bytes.length ∧ State.reset.cfg.longImageAccepted = true ∧
      ({ State.reset with cfg := { Config.reference with longImageAccepted := false } }).cfg.longImageAccepted
        = false :=
  ⟨_, rfl, by rw [List.length_replicate]; decide, rfl, rfl⟩
theorem witness_UnrecognizedLineShowsUsage : (stateAt .prompt [momentOf .halt [0x7A]]).mode = .prompt ∧
    (stateAt .prompt [momentOf .halt [0x7A]]).calls = [] ∧
    (stateAt .prompt [momentOf .halt [0x7A]]).nextMoment = (momentOf .halt [0x7A], stateAt .prompt []) ∧
    (momentOf .halt [0x7A]).close = none ∧ classify (momentOf .halt [0x7A]).line = none ∧
    classify (momentOf .halt []).line = none := ⟨rfl, rfl, rfl, rfl, by decide, by decide⟩
theorem witness_SteppingCommandsCycleThenCompose_step :
    (stateAt .prompt [momentOf .frameSync [], momentOf .instructionBoundary []]).inputs
      = [momentOf .frameSync []] ++ momentOf .instructionBoundary [] :: [] ∧
    (∀ m ∈ [momentOf .frameSync []], m.close = none ∧ m.cpu.result ≠ .instructionBoundary) ∧
    (momentOf .instructionBoundary []).close = none ∧
    (momentOf .instructionBoundary []).cpu.result = .instructionBoundary := by decide
theorem witness_SteppingCommandsCycleThenCompose_frame :
    (stateAt .prompt [momentOf .halt [], momentOf .frameSync [], momentOf .halt []]).inputs
      = [momentOf .halt []] ++ momentOf .frameSync [] :: [momentOf .halt []] ∧
    (∀ m ∈ [momentOf .halt []], m.close = none ∧ m.cpu.result ≠ .frameSync) ∧
    (momentOf .frameSync []).close = none ∧ (momentOf .frameSync []).cpu.result = .frameSync := by decide
theorem witness_SteppingCommandWaitsForResult :
    (∀ m ∈ (stateAt .prompt [momentOf .frameSync []]).inputs,
      m.close = none ∧ m.cpu.result ≠ .instructionBoundary) ∧
    (∀ m ∈ (stateAt .prompt []).inputs, m.close = none ∧ m.cpu.result ≠ .frameSync) := by decide
/-- A state inside `step` and one inside `frame`, with a cycle that brings the result and one that does not. -/
theorem witness_SteppingCommandWaitsForResult_cycle (mode : Mode) (r : CpuResult) :
    (stateAt mode [momentOf r []]).mode = mode ∧ (stateAt mode [momentOf r []]).calls = [] ∧
    (stateAt mode [momentOf r []]).nextMoment = (momentOf r [], stateAt mode []) ∧
    (momentOf r []).close = none ∧ (momentOf r []).cpu.result = r := ⟨rfl, rfl, rfl, rfl, rfl⟩
theorem witness_SteppingCommandWaitsForResult_close :
    (stateAt .prompt [momentOf .halt [], { momentOf .frameSync [] with close := some .normalExit }]).inputs
      = [momentOf .halt []] ++ { momentOf .frameSync [] with close := some .normalExit } :: [] ∧
    (∀ m ∈ [momentOf .halt []], m.close = none ∧ m.cpu.result ≠ .frameSync ∧
      m.cpu.result ≠ .instructionBoundary) := by decide
/-- Inside `step` the awaited result alone ends the command (R126): a FrameSync result does not. -/
theorem test_step_goes_on : leaves (step (stateAt .executingStep [momentOf .frameSync []]))
    (fun t => decide (t.mode = .executingStep) && decide (t.mem = [(0x10, 7)]) && decide (t.displayed = none)) = true := by
  decide
/-- A close signal before the awaited result ends the process (R155). -/
theorem test_frame_closed : leaves (exec .frame (stateAt .prompt
    [momentOf .halt [], { momentOf .frameSync [] with close := some .windowClose }]))
    (fun t => decide (t.mode = .ended (.closed .windowClose)) && decide (t.displayed = none)) = true := by decide
theorem witness_MonitorNeverLatchesKeys : ∀ m ∈ (stateAt .prompt [momentOf .instructionBoundary []]).inputs,
    ∀ w ∈ m.cpu.writes, w.1 ≠ State.reset.cfg.ctrl1Addr := by
  intro m hm w hw
  obtain rfl := List.mem_singleton.mp hm
  obtain rfl := List.mem_singleton.mp hw
  decide
theorem witness_PeekPrintsInclusiveRange : (65535 ≤ 65535 ∧ 65535 < 65536 ∧ 65535 + 0 ≤ 65535 ∧
    (65535 : Addr).val = 65535 + 0) ∧ (0x10 ≤ 0x1F ∧ 0x1F < 65536 ∧ 0x10 + 15 ≤ 0x1F ∧
    (0x1F : Addr).val = 0x10 + 15) := by decide
theorem witness_PeekOpenCasesPrintNoByte : (65535 < 65536 ∨ 65535 < (none : Option Nat).getD 65536) ∧
    (65535 < 0 ∨ 65535 < (some 65536).getD 0) ∧ (65534 < 65535 ∧ 65535 ≤ 65535) := by decide +kernel
theorem witness_DumpWritesWholeMemory : State.reset.dumpOpens = true ∧
    ({ State.reset with dumpOpens := false }).dumpOpens = false := by decide
theorem witness_DumpedFileReloads : backgroundSetup.mem.wf = true ∧ backgroundSetup.dumpOpens = true := by decide
theorem witness_BlockWritesOnlyCtrl1 : ∃ t, exec .inlatch State.reset = .next t ∧
    (∀ l, Instr.inlatch ≠ .reset l) ∧ Instr.inlatch ≠ .step ∧ Instr.inlatch ≠ .frame ∧
    (0x7003 : Addr) ≠ State.reset.cfg.ctrl1Addr :=
  ⟨_, rfl, by simp, by simp, by simp, by decide⟩
theorem witness_BlockWritesOnlyCtrl1_others : ∃ t, exec .quit State.reset = .next t ∧
    (∀ l, Instr.quit ≠ .reset l) ∧ Instr.quit ≠ .step ∧ Instr.quit ≠ .frame ∧ Instr.quit ≠ .inlatch ∧
    Instr.quit ≠ .framesync :=
  ⟨_, rfl, by simp, by simp, by simp, by simp, by simp⟩
theorem witness_ExecKeepsMemoryCanonical : backgroundSetup.mem.wf = true ∧
    ∃ t, exec .inlatch backgroundSetup = .next t := ⟨by decide, _, rfl⟩
theorem witness_ParametersNeverChange : ∃ t, step (stateAt .running [momentOf .halt []]) = .next t := ⟨_, rfl⟩
/-- A running state with a CPU cycle queued that stores a byte and halts. -/
theorem witness_StepKeepsInvariant : (stateAt .running [momentOf .halt []]).Inv ∧
    ∃ t, step (stateAt .running [momentOf .halt []]) = .next t :=
  ⟨⟨by decide, by decide, by unfold PaletteLawful; decide, by unfold PaletteWithin; decide, rfl, rfl⟩, _, rfl⟩

end Sys2Proof.Tests
end

section
/-! The palette that `PINIT` derives: its entries, and that it is lawful and in range (R75, R76). -/

namespace Sys2Proof.Machine

/-- An entry of the palette `PINIT` leaves (R75). -/
@[simp] theorem paletteColour_derivePalette (full : FullColours) (h : Hue) (sh : Shade) :
    paletteColour (derivePalette full) h sh = scaleColour full[h] sh := by
  simp [paletteColour, derivePalette]

/-- A channel at shade 3 is the full channel (R76 b). -/
@[simp] theorem scaleChannel_three (n : Nat) : scaleChannel n 3 = n := by
  simp [scaleChannel]

/-- No shade is brighter than the full channel (R76 d). -/
theorem scaleChannel_le (n : Nat) (sh : Shade) : scaleChannel n sh.val ≤ n := by
  have hsh : sh.val ≤ 3 := Nat.le_of_lt_succ sh.isLt
  calc n * sh.val / 3 ≤ n * 3 / 3 := Nat.div_le_div_right (Nat.mul_le_mul_left n hsh)
    _ = n := Nat.mul_div_cancel n (by decide)

/-- A scaled colour lies in the range of the full colour (R76 d). -/
theorem within_scaleColour {chMax : Nat} {full : Colour} (h : full.within chMax = true) (sh : Shade) :
    (scaleColour full sh).within chMax = true := by
  simp only [Colour.within, Bool.and_eq_true, decide_eq_true_eq] at h ⊢
  obtain ⟨⟨hr, hg⟩, hb⟩ := h
  exact ⟨⟨(scaleChannel_le _ sh).trans hr, (scaleChannel_le _ sh).trans hg⟩, (scaleChannel_le _ sh).trans hb⟩

/-- The full colours are read back off the palette they give (R76 b). -/
@[simp] theorem fullOf_derivePalette (full : FullColours) : fullOf (derivePalette full) = full := by
  refine Vector.ext fun h hh => ?_
  have hfull := paletteColour_derivePalette full ⟨h, hh⟩ 3
  simpa [fullOf, paletteColour, scaleColour] using hfull

/-- The palette of `PINIT` is the one its own shade 3 gives (R75). -/
theorem paletteLawful_derivePalette (full : FullColours) : PaletteLawful (derivePalette full) := by
  rw [PaletteLawful, fullOf_derivePalette]

/-- The palette of `PINIT` on colours in range is in range (R76 d). -/
theorem paletteWithin_derivePalette {chMax : Nat} {full : FullColours} (h : full.within chMax = true) :
    PaletteWithin chMax (derivePalette full) := by
  intro hue sh
  have hfull : full[hue].within chMax = true := List.all_eq_true.mp h _ (by simp)
  rw [paletteColour_derivePalette]
  exact within_scaleColour hfull sh

end Sys2Proof.Machine
end

section
/-! What one operation can do to `MEM`, and that it stays in canonical form (R14, R35, R36). -/

namespace Sys2Proof.Machine

/-- Everything one turn of a stepping command can do (R126, R127, R155). -/
theorem commandCycle_cases (s : State) (want : CpuResult) (m : Moment) :
    (∃ c, m.close = some c ∧ s.commandCycle want m = (s.sense m).endProcess (.closed c)) ∨
    (m.close = none ∧ m.cpu.result ≠ want ∧
      s.commandCycle want m = (s.sense m).cpuStores m.cpu.writes) ∨
    (m.close = none ∧ m.cpu.result = want ∧
      s.commandCycle want m = ((s.sense m).cpuStores m.cpu.writes).compose.enterMonitor) := by
  cases hclose : m.close with
  | some c => exact .inl ⟨c, rfl, by simp only [State.commandCycle, hclose]⟩
  | none =>
    by_cases hres : m.cpu.result = want
    · exact .inr (.inr ⟨rfl, hres, commandCycle_finishes s hclose hres⟩)
    · exact .inr (.inl ⟨rfl, hres, commandCycle_goes_on s (by simp [endsCommand, hclose, hres])⟩)

/-- One turn of a stepping command keeps the canonical form. -/
theorem wf_commandCycle {s : State} (h : s.mem.wf = true) (want : CpuResult) (m : Moment) :
    (s.commandCycle want m).mem.wf = true := by
  obtain ⟨c, -, heq⟩ | ⟨-, -, heq⟩ | ⟨-, -, heq⟩ := commandCycle_cases s want m <;> rw [heq]
  · exact h
  · exact Memory.wf_stores h _
  · rw [State.enterMonitor_mem, State.compose_mem]
    exact Memory.wf_stores h _

/-- The loop of a stepping command keeps the canonical form. -/
theorem wf_commandLoop {s : State} (h : s.mem.wf = true) (want : CpuResult) (ms : List Moment) :
    (commandLoop want ms s).mem.wf = true :=
  commandLoop_keeps (P := fun s => s.mem.wf = true) (fun m _ _ hs => wf_commandCycle hs want m)
    (fun _ _ hs => hs) h

/-- A loaded image is exactly as long as `MEM` (R14, R135). -/
theorem loadImage_length {cfg : Config} {f : ImageFile} {bytes : List Byte}
    (h : loadImage cfg f = .ok bytes) : bytes.length = 65536 := by
  cases f with
  | missingArgument => cases h
  | unreadable => cases h
  | contents file =>
    simp only [loadImage] at h
    split at h
    · cases h
    · split at h
      · cases h; assumption
      · split at h
        · cases h
          rw [List.length_take]
          omega
        · cases h

/-- The image of a complete launch is exactly as long as `MEM` (R161). -/
theorem launchInputs_length {cfg : Config} {l : Launch} {bytes : List Byte} {img : FontImage}
    (h : launchInputs cfg l = .ok (bytes, img)) : bytes.length = 65536 := by
  unfold launchInputs at h
  split at h
  · cases h
  · next hload =>
    split at h
    · cases h
    · split at h
      · cases h; exact loadImage_length hload
      · cases h

/-- What `RESET` can do to `MEM`: load an image, or leave it when the start fails (R161, R164). -/
theorem execReset_mem {l : Launch} {s t : State} (h : execReset l s = .next t) :
    t.mem = s.mem ∨ ∃ bytes : List Byte, bytes.length = 65536 ∧ t.mem = Memory.ofBytes 0 bytes := by
  unfold execReset at h
  split at h
  · cases h; exact .inl rfl
  · next bytes _ hlaunch => cases h; exact .inr ⟨bytes, launchInputs_length hlaunch, rfl⟩

/-- `FBRD` keeps `MEM`, whether or not the pixel is specified (R102). -/
theorem execFbrd_mem {x : Fin 256} {y : Fin 240} {s t : State} (h : execFbrd x y s = .next t) :
    t.mem = s.mem := by
  unfold execFbrd at h
  split at h <;> cases h <;> rfl

/-- `dump` keeps `MEM`, whether or not the file opens (R129). -/
theorem execDump_mem {s t : State} (h : execDump s = .next t) : t.mem = s.mem := by
  unfold execDump at h
  split at h <;> cases h <;> rfl

/-- Everything an operation can do to `MEM`: nothing, the latch's byte, the image of `RESET`, or the CPU
cycles of a stepping command (R35). -/
theorem exec_mem_cases {i : Instr} {s t : State} (h : exec i s = .next t) :
    t.mem = s.mem ∨
    ((i = .inlatch ∨ i = .framesync) ∧ t.mem = s.mem.write s.cfg.ctrl1Addr.val (ctrlByte s.keys)) ∨
    (∃ l bytes, i = .reset l ∧ bytes.length = 65536 ∧ t.mem = Memory.ofBytes 0 bytes) ∨
    (∃ want mode, (i = .step ∨ i = .frame) ∧ t = commandLoop want s.inputs { s with mode := mode }) := by
  cases i with
  | inlatch => cases h; exact .inr (.inl ⟨.inl rfl, rfl⟩)
  | framesync =>
    rw [exec_framesync] at h
    cases h
    exact .inr (.inl ⟨.inr rfl, State.frameSync_mem s⟩)
  | reset l =>
    obtain hmem | ⟨bytes, hlen, hmem⟩ := execReset_mem h
    · exact .inl hmem
    · exact .inr (.inr (.inl ⟨l, bytes, rfl, hlen, hmem⟩))
  | step => cases h; exact .inr (.inr (.inr ⟨_, _, .inl rfl, rfl⟩))
  | frame => cases h; exact .inr (.inr (.inr ⟨_, _, .inr rfl, rfl⟩))
  | compose =>
    rw [exec_compose] at h
    cases h
    exact .inl (State.compose_mem s)
  | fbrd x y => exact .inl (execFbrd_mem h)
  | dump => exact .inl (execDump_mem h)
  | bgwalk => cases h; exact .inl (State.drawBackground_mem s)
  | objwalk => cases h; exact .inl (State.drawObjects_mem s)
  | txtwalk => cases h; exact .inl (State.drawText_mem s)
  | pdec | bgtile | objdraw | txtcell | bgpal | pdect | pinit | plut | finit | fbclr | fbwr | blit | halt
  | help | peek | run | quit => cases h; exact .inl rfl

/-- Settles O57, by what an operation can do to `MEM`. -/
theorem execKeepsMemoryCanonical : Obligations.ExecKeepsMemoryCanonical := by
  intro i s t hwf hexec
  obtain hmem | ⟨-, hmem⟩ | ⟨_, bytes, -, hlen, hmem⟩ | ⟨want, mode, -, rfl⟩ := exec_mem_cases hexec
  · rw [hmem]; exact hwf
  · rw [hmem]; exact Memory.wf_write hwf _ _
  · rw [hmem]; exact Memory.wf_ofBytes bytes hlen.le
  · exact wf_commandLoop (s := { s with mode := mode }) hwf want s.inputs

end Sys2Proof.Machine
end

section
/-! The invariant `State.Inv`: at reset, under every update of the state, and under a step (R20, R106, R108). -/

namespace Sys2Proof.Machine

/-- What the invariant says of a buffer once one has been shown. -/
theorem frameShown_of_displayed {s : State} {d : FrameBuffer} (hd : s.displayed = some d) :
    FrameShown s ↔ d = s.fb ∧ FrameSpecified s.fb ∧ FrameFromPalette s.pal s.fb := by
  rw [FrameShown, hd]

/-- Every pixel of a composed frame is an entry of the palette, since the background is opaque (R84, R108). -/
theorem pixel_compose_palette (s : State) (x : Fin 256) (y : Fin 240) :
    ∃ h sh, s.compose.fb.pixel x y = some (paletteColour s.pal h sh) := by
  obtain ⟨h, sh, hbg⟩ := backgroundColour_palette s x y
  rw [pixel_compose, hbg]
  cases htext : textColour s x y with
  | some v =>
    obtain ⟨h', sh', rfl⟩ := blitColour_palette htext
    exact ⟨h', sh', rfl⟩
  | none =>
    cases hobj : objectColour s x y with
    | some v =>
      obtain ⟨k, -, hk⟩ := List.exists_of_findSome?_eq_some hobj
      obtain ⟨h', sh', rfl⟩ := blitColour_palette hk
      exact ⟨h', sh', rfl⟩
    | none => exact ⟨h, sh, rfl⟩

/-- A composition shows a whole frame of palette colours, whatever stood in the buffer before (R106, R108). -/
theorem frameShown_compose (s : State) : FrameShown s.compose := by
  rw [frameShown_of_displayed (State.compose_displayed s), State.compose_pal]
  refine ⟨rfl, fun x y => ?_, fun x y v hv => ?_⟩
  · obtain ⟨h, sh, hpix⟩ := pixel_compose_palette s x y
    rw [hpix, Option.isSome_some]
  · obtain ⟨h, sh, hpix⟩ := pixel_compose_palette s x y
    exact ⟨h, sh, Option.some.inj (hv.symm.trans hpix)⟩

namespace State.Inv

/-- The invariant speaks of the layout, `MEM`, `PAL`, the buffers and the queue of calls alone. -/
theorem congr {s t : State} (h : s.Inv) (hcfg : t.cfg = s.cfg) (hmem : t.mem.wf = true) (hpal : t.pal = s.pal)
    (hfb : t.fb = s.fb) (hdisplayed : t.displayed = s.displayed) (hcalls : t.calls = s.calls) : t.Inv where
  layout := hcfg ▸ h.layout
  memory := hmem
  palette := hpal ▸ h.palette
  channels := by rw [hcfg, hpal]; exact h.channels
  frame := by
    have hframe := h.frame
    unfold FrameShown at hframe ⊢
    rw [hdisplayed, hfb, hpal]
    exact hframe
  noCalls := hcalls.trans h.noCalls

/-! ### The updates of the state -/

theorem sense {s : State} (h : s.Inv) (m : Moment) : (s.sense m).Inv := h.congr rfl h.memory rfl rfl rfl rfl

theorem print {s : State} (h : s.Inv) (ms : List Message) : (s.print ms).Inv :=
  h.congr rfl h.memory rfl rfl rfl rfl

theorem enterMonitor {s : State} (h : s.Inv) : s.enterMonitor.Inv := h.congr rfl h.memory rfl rfl rfl rfl

theorem leaveMonitor {s : State} (h : s.Inv) : s.leaveMonitor.Inv := h.congr rfl h.memory rfl rfl rfl rfl

theorem endProcess {s : State} (h : s.Inv) (e : Ending) : (s.endProcess e).Inv :=
  h.congr rfl h.memory rfl rfl rfl rfl

theorem withMode {s : State} (h : s.Inv) (mode : Mode) : ({ s with mode := mode } : State).Inv :=
  h.congr rfl h.memory rfl rfl rfl rfl

theorem withDumpFile {s : State} (h : s.Inv) (file : Option (List Byte)) :
    ({ s with dumpFile := file } : State).Inv :=
  h.congr rfl h.memory rfl rfl rfl rfl

theorem withQueue {s : State} (h : s.Inv) (inputs : List Moment) (drawn : Nat) :
    ({ s with inputs := inputs, drawn := drawn } : State).Inv :=
  h.congr rfl h.memory rfl rfl rfl rfl

theorem readLine {s : State} (h : s.Inv) (m : Moment) : (s.readLine m).Inv :=
  h.congr rfl h.memory rfl rfl rfl rfl

theorem cpuStores {s : State} (h : s.Inv) (ws : List (Addr × Byte)) : (s.cpuStores ws).Inv :=
  h.congr rfl (Memory.wf_stores h.memory ws) rfl rfl rfl rfl

theorem latchKeys {s : State} (h : s.Inv) : s.latchKeys.Inv :=
  h.congr rfl (Memory.wf_write h.memory _ _) rfl rfl rfl rfl

theorem showUsage {s : State} (h : s.Inv) : s.showUsage.Inv := (h.print _).enterMonitor

theorem nextMoment {s : State} (h : s.Inv) : s.nextMoment.2.Inv := by
  obtain ⟨inputs, drawn, heq⟩ := nextMoment_eq s
  rw [heq]
  exact h.withQueue inputs drawn

/-- A composition changes the buffer and what is shown, to a whole frame (R104, R108). -/
theorem compose {s : State} (h : s.Inv) : s.compose.Inv where
  layout := by rw [State.compose_cfg]; exact h.layout
  memory := by rw [State.compose_mem]; exact h.memory
  palette := by rw [State.compose_pal]; exact h.palette
  channels := by rw [State.compose_cfg, State.compose_pal]; exact h.channels
  frame := frameShown_compose s
  noCalls := (State.compose_calls s).trans h.noCalls

theorem frameSync {s : State} (h : s.Inv) : s.frameSync.Inv := by
  rw [State.frameSync_eq]
  exact h.compose.latchKeys

/-! ### The stepping commands and the turns -/

theorem commandCycle {s : State} (h : s.Inv) (want : CpuResult) (m : Moment) : (s.commandCycle want m).Inv := by
  obtain ⟨c, -, heq⟩ | ⟨-, -, heq⟩ | ⟨-, -, heq⟩ := commandCycle_cases s want m <;> rw [heq]
  · exact (h.sense m).endProcess _
  · exact (h.sense m).cpuStores _
  · exact ((h.sense m).cpuStores _).compose.enterMonitor

theorem commandLoop {s : State} (h : s.Inv) (want : CpuResult) (ms : List Moment) :
    (commandLoop want ms s).Inv :=
  commandLoop_keeps (P := State.Inv) (fun m _ _ hs => hs.commandCycle want m)
    (fun s q hs => hs.withQueue q s.drawn) h

/-- Every operation that an operator's line selects keeps the invariant (R124). -/
theorem exec_decodeLine {line : List Byte} {i : Instr} {s t : State} (h : s.Inv)
    (hline : decodeLine line = some i) (hexec : exec i s = .next t) : t.Inv := by
  obtain rfl | rfl | rfl | ⟨lo, hi, rfl⟩ | rfl | rfl | rfl := decodeLine_cases hline
  · rw [exec_help] at hexec; cases hexec; exact (h.print _).enterMonitor
  · rw [exec_step] at hexec; cases hexec; exact (h.withMode _).commandLoop _ _
  · rw [exec_frame] at hexec; cases hexec; exact (h.withMode _).commandLoop _ _
  · rw [exec_peek] at hexec; cases hexec; exact (h.print _).enterMonitor
  · rw [exec_dump, execDump] at hexec
    split at hexec <;> cases hexec
    · exact (h.withDumpFile _).enterMonitor
    · exact (h.print _).enterMonitor
  · rw [exec_run] at hexec; cases hexec; exact h.leaveMonitor
  · rw [exec_quit] at hexec; cases hexec; exact h.endProcess _

/-- An operator's line keeps the invariant, recognized or not (R124, R133). -/
theorem select_line {s t : State} (h : s.Inv) (hsel : select .line s = .next t) : t.Inv := by
  cases hline : decodeLine s.line with
  | some i =>
    have hdecode : decode .line (s.fetch .line) = some (i, []) := by simp [decode, fetch_line, hline]
    rw [select_some hdecode] at hsel
    exact h.exec_decodeLine hline hsel
  | none =>
    have hdecode : decode .line (s.fetch .line) = none := by simp [decode, fetch_line, hline]
    rw [select_none hdecode] at hsel
    cases hsel
    exact h.showUsage

/-- The driver loop's dispatch of a CPU result keeps the invariant (R143). -/
theorem select_event {s t : State} (h : s.Inv) {r : CpuResult} (hsel : select (.event r) s = .next t) :
    t.Inv := by
  cases r with
  | continuing => cases hsel; exact h
  | instructionBoundary => cases hsel; exact h
  | frameSync =>
    rw [select_some (i := .framesync) (bs := []) rfl, exec_framesync] at hsel
    cases hsel
    exact h.frameSync
  | halt => cases hsel; exact h.enterMonitor

/-- A turn keeps the invariant in every mode, close signal or not (R143, R155). -/
theorem turn {s t : State} (h : s.Inv) {m : Moment} (hturn : turn m s = .next t) : t.Inv := by
  cases hmode : s.mode with
  | ended e => simp only [Machine.turn, hmode] at hturn; cases hturn; exact h
  | running =>
    cases hclose : m.close <;> simp only [Machine.turn, hmode, hclose] at hturn
    case none => exact ((h.sense m).cpuStores _).select_event hturn
    case some => cases hturn; exact (h.sense m).endProcess _
  | prompt =>
    cases hclose : m.close <;> simp only [Machine.turn, hmode, hclose] at hturn
    case none => exact ((h.sense m).readLine m).select_line hturn
    case some => cases hturn; exact ((h.sense m).print _).endProcess _
  | executingStep => simp only [Machine.turn, hmode] at hturn; cases hturn; exact h.commandCycle _ m
  | executingFrame => simp only [Machine.turn, hmode] at hturn; cases hturn; exact h.commandCycle _ m

end State.Inv

/-- Settles O60: an ended process stays, and with no queued call a step is a turn at the next moment. -/
theorem stepKeepsInvariant : Obligations.StepKeepsInvariant := by
  intro s t h hstep
  by_cases hended : ∃ e, s.mode = .ended e
  · obtain ⟨e, he⟩ := hended
    rw [step_ended he] at hstep
    cases hstep
    exact h
  · rw [step_turn (not_exists.mp hended) h.noCalls] at hstep
    exact h.nextMoment.turn hstep

/-- Settles O59: REFCFG's regions lie apart, and its palette is derived from colours in range. -/
theorem resetStateMeetsInvariant : Obligations.ResetStateMeetsInvariant where
  layout := by decide
  memory := rfl
  palette := paletteLawful_derivePalette Config.referenceFull
  channels := paletteWithin_derivePalette (by decide)
  frame := rfl
  noCalls := rfl

end Sys2Proof.Machine
end

section
/-! Where records are fetched from, and that their regions lie in the address space (R33, R34). -/

namespace Sys2Proof.Machine

/-! ### The regions end inside the address space (R33) -/

theorem fgPtBase_region_lt (cfg : Config) : cfg.fgPtBase.val + 511 < 65536 := by omega

theorem bgPtBase_region_lt (cfg : Config) : cfg.bgPtBase.val + 511 < 65536 := by omega

theorem ntBase_region_lt (cfg : Config) : cfg.ntBase.val + 959 < 65536 := by omega

theorem txtBase_region_lt (cfg : Config) : cfg.txtBase.val + 959 < 65536 := by omega

theorem objBase_region_lt (cfg : Config) : cfg.objBase.val + 255 < 65536 := by omega

/-- The last byte of a pattern lies inside its table. -/
theorem pattern_offset_lt (p : Fin 32) : 16 * p.val + 15 < 512 := by omega

/-- A cell's entry lies inside its table. -/
theorem cell_offset_le (i : Cell) : i.val ≤ 959 := Nat.le_of_lt_succ i.isLt

/-- The last byte of a slot's entry lies inside the object table. -/
theorem object_offset_lt (k : ObjSlot) : 4 * k.val + 3 < 256 := by omega

/-! ### The bytes a selection is fetched from (R34) -/

/-- A byte of a `TILE` record read from `MEM` (R51). -/
@[simp] theorem readTile_getElem (s : State) (a j : Nat) (hj : j < 16) :
    (s.readTile a)[j] = s.mem.read (a + j) := by
  simp [State.readTile]

theorem fetch_tile_getElem? (s : State) (t : PatternTable) (p : Fin 32) (j : Fin 16) :
    (s.fetch (.tile t p))[j.val]? = some (s.mem.read (patternAddr s.cfg t p + j.val)) := by
  simp [State.fetch]

theorem fetch_nametable (s : State) (i : Cell) :
    s.fetch (.nametable i) = [s.mem.read (s.cfg.ntBase.val + i.val)] := rfl

theorem fetch_text (s : State) (i : Cell) :
    s.fetch (.text i) = [s.mem.read (s.cfg.txtBase.val + i.val)] := rfl

theorem fetch_object (s : State) (k : ObjSlot) : s.fetch (.object k) =
    [s.mem.read (s.cfg.objBase.val + 4 * k.val), s.mem.read (s.cfg.objBase.val + 4 * k.val + 1),
     s.mem.read (s.cfg.objBase.val + 4 * k.val + 2), s.mem.read (s.cfg.objBase.val + 4 * k.val + 3)] := rfl

/-- Settles O15: the addresses of R34 are the model's own, and the type of each base keeps its region below
65536. -/
theorem recordAddressesStayInRegions : Obligations.RecordAddressesStayInRegions := by
  intro s
  refine ⟨fun p => ⟨rfl, pattern_offset_lt p, fgPtBase_region_lt s.cfg⟩,
    fun p => ⟨rfl, pattern_offset_lt p, bgPtBase_region_lt s.cfg⟩, fun col row i hi => ?cells,
    fun k => ⟨fetch_object s k, object_offset_lt k, objBase_region_lt s.cfg⟩, fun i => ⟨rfl, rfl⟩,
    fun k => rfl, fetch_tile_getElem? s⟩
  case cells =>
    rw [fetch_nametable, fetch_text, Nat.add_assoc, Nat.add_assoc, ← hi]
    exact ⟨rfl, rfl, Nat.add_le_add_left (cell_offset_le i) _, ntBase_region_lt s.cfg,
      Nat.add_le_add_left (cell_offset_le i) _, txtBase_region_lt s.cfg⟩

end Sys2Proof.Machine
end

section
/-! What the block writes to `MEM`, and what is displayed between two FrameSync results (R35, R41, R166). -/

namespace Sys2Proof.Machine

/-- Settles O56: of all that an operation can do to `MEM`, only the latch's byte is left. -/
theorem blockWritesOnlyCtrl1 : Obligations.BlockWritesOnlyCtrl1 := by
  intro i s t hexec hreset hstep hframe
  obtain hmem | ⟨hlatch, hmem⟩ | ⟨l, -, hi, -, -⟩ | ⟨-, -, hi, -⟩ := exec_mem_cases hexec
  · exact ⟨fun a _ => by rw [hmem], fun _ _ => hmem⟩
  · refine ⟨fun a ha => ?_, fun hinlatch hframesync => (hlatch.elim hinlatch hframesync).elim⟩
    rw [hmem]
    exact Memory.read_write_ne _ _ fun h => ha (Fin.ext h.symm)
  · exact absurd hi (hreset l)
  · exact (hi.elim hstep hframe).elim

/-- Everything the driver loop does for a CPU result (R143). -/
theorem select_event_cases (r : CpuResult) (s : State) :
    (r = .frameSync ∧ select (.event r) s = .next s.frameSync) ∨
    (r = .halt ∧ select (.event r) s = .next s.enterMonitor) ∨
    ((r = .continuing ∨ r = .instructionBoundary) ∧ select (.event r) s = .next s) := by
  cases r with
  | frameSync => exact .inl ⟨rfl, rfl⟩
  | halt => exact .inr (.inl ⟨rfl, rfl⟩)
  | continuing => exact .inr (.inr ⟨.inl rfl, rfl⟩)
  | instructionBoundary => exact .inr (.inr ⟨.inr rfl, rfl⟩)

/-- Everything a turn of the driver loop can be: the end of the process, or one CPU cycle and the dispatch of
its result (R143, R155). -/
theorem turn_running_cases {s : State} (hmode : s.mode = .running) (m : Moment) :
    (∃ c, m.close = some c ∧ turn m s = .next ((s.sense m).endProcess (.closed c))) ∨
    (m.close = none ∧ turn m s = select (.event m.cpu.result) ((s.sense m).cpuStores m.cpu.writes)) := by
  cases hclose : m.close with
  | some c => exact .inl ⟨c, rfl, by simp only [turn, hmode, hclose]⟩
  | none => exact .inr ⟨rfl, by simp only [turn, hmode, hclose]⟩

/-- Between two FrameSync results a turn of the driver loop keeps the frame and what is displayed (R41, R166). -/
theorem turn_running_keeps_display {s : State} (hmode : s.mode = .running) {m : Moment}
    (hresult : m.cpu.result ≠ .frameSync) :
    ∃ t, turn m s = .next t ∧ t.displayed = s.displayed ∧ t.fb = s.fb := by
  obtain ⟨c, -, hturn⟩ | ⟨-, hturn⟩ := turn_running_cases hmode m <;> rw [hturn]
  · exact ⟨_, rfl, rfl, rfl⟩
  · obtain ⟨hsync, -⟩ | ⟨-, hsel⟩ | ⟨-, hsel⟩ :=
      select_event_cases m.cpu.result ((s.sense m).cpuStores m.cpu.writes)
    · exact absurd hsync hresult
    · exact ⟨_, hsel, rfl, rfl⟩
    · exact ⟨_, hsel, rfl, rfl⟩

/-- Settles O43: taking the moment leaves mode, frame and display, and the turn keeps the last two. -/
theorem displayStaysBetweenFrameSyncs : Obligations.DisplayStaysBetweenFrameSyncs := by
  intro s s₁ m hmode hcalls hnext hresult
  obtain ⟨inputs, drawn, heq⟩ := nextMoment_eq s
  rw [step_turn (by simp [hmode]) hcalls, heq, hnext]
  exact turn_running_keeps_display (s := { s with inputs := inputs, drawn := drawn }) hmode hresult

end Sys2Proof.Machine
end

section
/-! The record formats read off a byte as a number, and put together again (R7, R50 to R54). -/

namespace Sys2Proof

/-! ### Fields of a byte -/

/-- The value of a field at the low end of a byte (R7). -/
@[simp] theorem bits_zero_val (b : Byte) (w : Nat) : (bits b 0 w).val = b.toNat % 2 ^ w := by
  rw [bits_val, pow_zero, Nat.div_one]

/-- A bit is the field of width 1 at its place (R7). -/
theorem bit_eq_bits (b : Byte) (i : Nat) : bit b i = decide ((bits b i 1).val = 1) := by
  rw [bit_eq, bits_val, pow_one]

/-- Bytes that agree below bit `n` agree in every field below it (R7). -/
theorem bits_congr {b c : Byte} {n : Nat} (h : b.toNat % 2 ^ n = c.toNat % 2 ^ n) (lo w : Nat)
    (hn : lo + w ≤ n) : bits b lo w = bits c lo w := by
  have hdvd : 2 ^ lo * 2 ^ w ∣ 2 ^ n := by
    rw [← pow_add]
    exact pow_dvd_pow 2 hn
  have hmod : b.toNat % (2 ^ lo * 2 ^ w) = c.toNat % (2 ^ lo * 2 ^ w) := by
    rw [← Nat.mod_mod_of_dvd _ hdvd, h, Nat.mod_mod_of_dvd _ hdvd]
  refine Fin.ext ?_
  rw [bits_val, bits_val, ← Nat.mod_mul_right_div_self, hmod, Nat.mod_mul_right_div_self]

/-- Bytes that agree below bit `n` agree in every bit below it (R7). -/
theorem bit_congr {b c : Byte} {n : Nat} (h : b.toNat % 2 ^ n = c.toNat % 2 ^ n) (i : Nat) (hn : i < n) :
    bit b i = bit c i := by
  rw [bit_eq_bits, bit_eq_bits, bits_congr h i 1 hn]

/-- A bit is the Boolean whose number stands at its place (R7). -/
theorem bit_of_toNat {b : Byte} {i : Nat} {f : Bool} (h : b.toNat / 2 ^ i % 2 = f.toNat) : bit b i = f := by
  rw [bit_eq, h]
  cases f <;> rfl

/-- A field at the low end is the number that stands there (R7). -/
theorem bits_zero_of_toNat {b : Byte} {w : Nat} {f : Fin (2 ^ w)} (h : b.toNat % 2 ^ w = f.val) :
    bits b 0 w = f :=
  Fin.ext ((bits_zero_val b w).trans h)

/-! ### Records put together -/

/-- A word put together from its high and its low bits, as a number (R7). -/
theorem toNat_append_eq {m w : Nat} (hi : BitVec m) (lo : BitVec w) :
    (hi ++ lo).toNat = hi.toNat * 2 ^ w + lo.toNat := by
  rw [BitVec.toNat_append, ← Nat.shiftLeft_add_eq_or_of_lt lo.isLt, Nat.shiftLeft_eq]

/-- The `NTE` byte as a number (R52). -/
theorem Nte.toByte_toNat (e : Nte) : e.toByte.toNat
    = ((e.hsel.toNat * 2 + e.hflip.toNat) * 2 + e.vflip.toNat) * 32 + e.pat.val := by
  refine (toNat_append_eq _ _).trans ?_
  rw [toNat_append_eq, toNat_append_eq, BitVec.toNat_ofBool, BitVec.toNat_ofBool, BitVec.toNat_ofBool]
  rfl

/-- The `TXTE` byte as a number (R54). -/
theorem Txte.toByte_toNat (e : Txte) : e.toByte.toNat = e.tsel.toNat * 128 + e.glyph.val := by
  refine (toNat_append_eq _ _).trans ?_
  rw [BitVec.toNat_ofBool]
  rfl

/-- The `NTE` byte gives its fields back (R52). -/
@[simp] theorem Nte.ofByte_toByte (e : Nte) : Nte.ofByte e.toByte = e := by
  have hbyte := e.toByte_toNat
  have hhsel := e.hsel.toNat_le
  have hhflip := e.hflip.toNat_le
  have hvflip := e.vflip.toNat_le
  have hfields : bit e.toByte 7 = e.hsel ∧ bit e.toByte 6 = e.hflip ∧ bit e.toByte 5 = e.vflip ∧
      bits e.toByte 0 5 = e.pat := by
    refine ⟨bit_of_toNat ?_, bit_of_toNat ?_, bit_of_toNat ?_, bits_zero_of_toNat ?_⟩ <;> omega
  obtain ⟨h7, h6, h5, h0⟩ := hfields
  rw [Nte.ofByte, h7, h6, h5, h0]

/-- The `TXTE` byte gives its fields back (R54). -/
@[simp] theorem Txte.ofByte_toByte (e : Txte) : Txte.ofByte e.toByte = e := by
  have hbyte := e.toByte_toNat
  have htsel := e.tsel.toNat_le
  have hfields : bit e.toByte 7 = e.tsel ∧ bits e.toByte 0 7 = e.glyph := by
    refine ⟨bit_of_toNat ?_, bits_zero_of_toNat ?_⟩ <;> omega
  obtain ⟨h7, h0⟩ := hfields
  rw [Txte.ofByte, h7, h0]

/-- `pattern_config` has the layout of an `NTE` byte whose top bit no field names (R53, R60). -/
theorem Obje.ofBytes_eq (x y config color : Byte) : Obje.ofBytes x y config color =
    ⟨x.toFin, y.toFin, (Nte.ofByte config).hflip, (Nte.ofByte config).vflip, (Nte.ofByte config).pat,
      bits color 0 3⟩ := rfl

/-- The `OBJE` bytes, `pattern_config` as an `NTE` byte with a clear top bit (R53). -/
theorem Obje.toBytes_eq (o : Obje) : o.toBytes = [BitVec.ofFin o.x, BitVec.ofFin o.y,
    Nte.toByte ⟨false, o.hflip, o.vflip, o.pat⟩, 0#5 ++ (BitVec.ofFin o.hue : BitVec 3)] := rfl

/-- The hue byte gives its field back (R53). -/
theorem bits_hueByte (h : Hue) : bits (0#5 ++ (BitVec.ofFin h : BitVec 3)) 0 3 = h := by
  have hbyte : (0#5 ++ (BitVec.ofFin h : BitVec 3)).toNat = 0 * 8 + h.val := toNat_append_eq _ _
  exact bits_zero_of_toNat (by omega)

/-- The `OBJE` bytes give the fields back, and the bytes after them are left over (R50, R53). -/
theorem decode_object_toBytes (k : ObjSlot) (o : Obje) (rest : List Byte) :
    decode (.object k) (o.toBytes ++ rest) = some (.objdraw k o, rest) := by
  rw [Obje.toBytes_eq]
  simp only [List.cons_append, List.nil_append, decode, Obje.ofBytes_eq, Nte.ofByte_toByte, bits_hueByte]

/-- Settles O2: the fields are the model's bits and bit fields, whose values are quotients and remainders. -/
theorem recordFieldsAreTheirBits : Obligations.RecordFieldsAreTheirBits :=
  ⟨fun _ b _ => ⟨Nte.ofByte b, rfl, bit_eq b 7, bit_eq b 6, bit_eq b 5, bits_zero_val b 5⟩,
    fun _ b _ => ⟨Txte.ofByte b, rfl, bit_eq b 7, bits_zero_val b 7⟩,
    fun _ x y config color _ => ⟨Obje.ofBytes x y config color, rfl, rfl, rfl, bit_eq config 6,
      bit_eq config 5, bits_zero_val config 5, bits_zero_val color 3⟩⟩

/-- Settles O3: a `TILE` record takes any sixteen bytes, every other format any bytes of its length. -/
theorem everyRecordValueDecodes : Obligations.EveryRecordValueDecodes := by
  refine ⟨fun t n r c p rest => ?tile, fun i b rest => ⟨rfl, rfl, rfl⟩, fun k bs rest hlen => ?object⟩
  case tile => simp only [decode, takeTile_append, and_self]
  case object =>
    match bs, hlen with
    | [_, _, _, _], _ => rfl

/-- Settles O5, by decoding the four words. -/
theorem writtenWordsDecode : Obligations.WrittenWordsDecode := by
  unfold Obligations.WrittenWordsDecode
  decide

/-- Settles O18: the two hues are the 3-bit fields at the configured positions. -/
theorem bgpalReadsTwoHues : Obligations.BgpalReadsTwoHues := fun b s =>
  ⟨Machine.bgHue0 s.cfg b, Machine.bgHue1 s.cfg b, Machine.exec_bgpal b s, bits_val b _ 3, bits_val b _ 3⟩

end Sys2Proof
end

section
/-! The operator's line: decimal literals, the operands of `peek`, the encoder's lines; and that decoding undoes
encoding (R123, R128, R130). -/

namespace Sys2Proof

/-! ### Scanning digits (R130) -/

theorem scanDigits_cons {base d : Nat} {ch : Byte} (h : digitValue base ch = some d) (v k : Nat)
    (rest : List Byte) : scanDigits base v k (ch :: rest) = scanDigits base (v * base + d) (k + 1) rest := by
  rw [scanDigits, h]

/-- Scanning stops at a character that is no digit, and at the end. -/
theorem scanDigits_stop {base : Nat} {rest : List Byte} (h : ∀ ch ∈ rest.head?, digitValue base ch = none)
    (v k : Nat) : scanDigits base v k rest = (v, k, rest) := by
  cases rest with
  | nil => rfl
  | cons ch rest => rw [scanDigits, h ch rfl]

/-- A decimal digit is neither a blank nor the sign of another base. -/
theorem decimalDigit_plain {ch : Byte} (h : (digitValue 10 ch).isSome = true) :
    isBlank ch = false ∧ ch ≠ 0x24 ∧ ch ≠ 0x25 := by
  have hne : ∀ c : Byte, digitValue 10 c = none → ch ≠ c := by
    rintro c hc rfl
    simp [hc] at h
  have hspace := hne 0x20 (by decide)
  have htab := hne 0x09 (by decide)
  have hblank : isBlank ch = false := by simp only [isBlank, hspace, htab, decide_false, Bool.or_self]
  exact ⟨hblank, hne 0x24 (by decide), hne 0x25 (by decide)⟩

/-- A text that begins with a decimal digit is a decimal literal. -/
theorem literalBase_decimal {ch : Byte} (h : (digitValue 10 ch).isSome = true) (rest : List Byte) :
    literalBase ((ch :: rest).dropWhile isBlank) = (10, ch :: rest) := by
  obtain ⟨hblank, hhex, hbin⟩ := decimalDigit_plain h
  rw [List.dropWhile_cons_of_neg (by simp [hblank]), literalBase, if_neg hhex, if_neg hbin]

/-- A blank before a literal is skipped. -/
theorem parseNum_blank (s : List Byte) : parseNum (0x20 :: s) = parseNum s := rfl

/-! ### The decimal literal of a number (R130) -/

/-- The character of a decimal digit has the digit's value. -/
theorem digitValue_decimal {d : Nat} (hd : d < 10) : digitValue 10 (BitVec.ofNat 8 (0x30 + d)) = some d := by
  have hall : ∀ d : Fin 10, digitValue 10 (BitVec.ofNat 8 (0x30 + d.val)) = some d.val := by decide
  exact hall ⟨d, hd⟩

/-- The characters of a decimal literal are digits. -/
theorem decimalDigits_isSome (fuel n : Nat) :
    ∀ ch ∈ decimalDigits fuel n, (digitValue 10 ch).isSome = true := by
  induction fuel generalizing n with
  | zero => simp [decimalDigits]
  | succ fuel ih =>
    have hlast := digitValue_decimal (Nat.mod_lt n (show 0 < 10 by decide))
    intro ch hch
    rw [decimalDigits, List.mem_append, List.mem_singleton] at hch
    obtain hch | rfl := hch
    · split at hch
      · cases hch
      · exact ih _ ch hch
    · rw [hlast, Option.isSome_some]

/-- Scanning the digits of a number gives the number and their count. -/
theorem scanDigits_decimalDigits {fuel n : Nat} (hn : n < fuel) (k : Nat) (rest : List Byte) :
    scanDigits 10 0 k (decimalDigits fuel n ++ rest)
      = scanDigits 10 n (k + (decimalDigits fuel n).length) rest := by
  induction fuel generalizing n rest with
  | zero => omega
  | succ fuel ih =>
    have hlast := digitValue_decimal (Nat.mod_lt n (show 0 < 10 by decide))
    rw [decimalDigits, List.append_assoc, List.singleton_append]
    split
    case isTrue hlt =>
      rw [List.nil_append, scanDigits_cons hlast, Nat.zero_mul, Nat.zero_add, Nat.mod_eq_of_lt hlt]
      rfl
    case isFalse hge =>
      rw [ih (by omega), scanDigits_cons hlast, Nat.div_add_mod', List.length_append, Nat.add_assoc]
      rfl

/-- A decimal literal has a first digit. -/
theorem decimalLiteral_cons (n : Nat) :
    ∃ ch ds, decimalLiteral n = ch :: ds ∧ (digitValue 10 ch).isSome = true := by
  cases hlit : decimalLiteral n with
  | nil => simp [decimalLiteral, decimalDigits] at hlit
  | cons ch ds =>
    have hmem : ch ∈ decimalDigits (n + 1) n := by
      rw [← decimalLiteral, hlit]
      exact List.mem_cons_self
    exact ⟨ch, ds, rfl, decimalDigits_isSome _ _ ch hmem⟩

/-- A decimal literal is parsed as its number, up to the next character that is no digit. -/
theorem parseNum_decimalLiteral (n : Nat) {rest : List Byte}
    (h : ∀ ch ∈ rest.head?, digitValue 10 ch = none) : parseNum (decimalLiteral n ++ rest) = (some n, rest) := by
  have hscan : scanDigits 10 0 0 (decimalLiteral n ++ rest) = (n, 0 + (decimalLiteral n).length, rest) :=
    (scanDigits_decimalDigits (Nat.lt_succ_self n) 0 rest).trans (scanDigits_stop h _ _)
  obtain ⟨ch, ds, hlit, hdigit⟩ := decimalLiteral_cons n
  rw [hlit, List.cons_append] at hscan ⊢
  rw [parseNum, literalBase_decimal hdigit]
  simp [hscan]

/-! ### The encoder's lines (R124, R128) -/

/-- An encoded operand begins with its blank. -/
theorem encodeOperand_head (v : Option Nat) : ∀ ch ∈ (encodeOperand v).head?, ch = 0x20 := by
  cases v <;> simp [encodeOperand]

/-- An encoded first operand is parsed as its number, whatever operand comes after it. -/
theorem parseNum_encodeOperand (n : Nat) (v : Option Nat) :
    parseNum (encodeOperand (some n) ++ encodeOperand v) = (some n, encodeOperand v) := by
  have hstop : ∀ ch ∈ (encodeOperand v).head?, digitValue 10 ch = none := fun ch hch => by
    rw [encodeOperand_head v ch hch]
    decide
  rw [encodeOperand, List.cons_append, parseNum_blank, parseNum_decimalLiteral n hstop]

/-- The last operand of an encoded line is parsed as itself. -/
theorem parseNum_encodeOperand_last (v : Option Nat) : (parseNum (encodeOperand v)).1 = v := by
  cases v with
  | none => rfl
  | some n =>
    have hparse : parseNum (encodeOperand (some n) ++ []) = (some n, []) := parseNum_encodeOperand n none
    rw [List.append_nil] at hparse
    rw [hparse]

/-- The operands of an encoded `peek` line are those encoded. -/
theorem peekOperands_encode {lo hi : Option Nat} (h : (lo.isSome || hi.isNone) = true) :
    peekOperands (Command.peek.word ++ encodeOperand lo ++ encodeOperand hi) = (lo, hi) := by
  cases lo with
  | none =>
    cases hi with
    | none => decide
    | some hi => cases h
  | some lo =>
    have hword : (Command.peek.word ++ (encodeOperand (some lo) ++ encodeOperand hi)).dropWhile
        (fun ch => !isBlank ch) = encodeOperand (some lo) ++ encodeOperand hi := rfl
    rw [peekOperands, List.append_assoc, hword, parseNum_encodeOperand]
    simp only [parseNum_encodeOperand_last]

/-- A line that begins with the word `peek` selects that command. -/
theorem decodeLine_peek (rest : List Byte) :
    decodeLine (Command.peek.word ++ rest) = some (.peek
      (peekOperands (Command.peek.word ++ rest)).1 (peekOperands (Command.peek.word ++ rest)).2) := rfl

/-! ### Decoding undoes encoding -/

/-- An operation that no bits select is encoded as its own call (R64). -/
theorem encode_of_calledOnly {i : Instr} (h : i.calledOnly = true) : encode i = (.call i, []) := by
  cases i <;> cases h <;> rfl

/-- Sixteen bytes are taken as the record they make (R51). -/
theorem takeTile_toList (p : Tile) : takeTile p.toList = some (p, []) := by
  simpa using takeTile_append p []

/-- Settles O1: a call carries its operation, a record gives its fields back, and a line's word its command. -/
theorem decodeEncodeRoundTrip : Obligations.DecodeEncodeRoundTrip := by
  intro cfg i hwf
  by_cases hcall : i.calledOnly = true
  · rw [encode_of_calledOnly hcall]
    exact decode_call i [] hcall
  · cases i with
    | pdec p r c => simp only [encode, decode, takeTile_toList]
    | pdect p => simp only [encode, decode, takeTile_toList]
    | bgtile i e => simp only [encode, decode, Nte.ofByte_toByte]
    | objdraw k o => exact decode_object_toBytes k o []
    | txtcell i e => simp only [encode, decode, Txte.ofByte_toByte]
    | bgpal b => rfl
    | framesync => rfl
    | halt => rfl
    | help => decide
    | step => decide
    | frame => decide
    | peek lo hi =>
      simp only [encode, decode, List.append_assoc, decodeLine_peek]
      rw [← List.append_assoc, peekOperands_encode hwf]
      rfl
    | dump => decide
    | run => decide
    | quit => decide
    | _ => exact absurd rfl hcall

end Sys2Proof
end

section
/-! A selection's step: a word placed where its selection is fetched from is what the next step runs
(R58, R122). -/

namespace Sys2Proof.Machine

/-- Bytes stored inside the address space are read back as a record (R8, R31). -/
theorem readBytes_writeBytes {s : State} (hwf : s.mem.wf = true) {a n : Nat} {bs : List Byte}
    (hlen : bs.length = n) (hend : a + n ≤ 65536) :
    ({ s with mem := s.mem.writeBytes a bs } : State).readBytes a n = bs := by
  subst hlen
  refine List.ext_getElem (by simp [State.readBytes]) fun k _ hk => ?_
  simp only [State.readBytes, List.getElem_map, List.getElem_range]
  exact Memory.read_writeBytes bs hwf hk hend

/-- The bytes of a `TILE` record are those of its sixteen addresses (R51). -/
theorem readTile_toList (s : State) (a : Nat) : (s.readTile a).toList = s.readBytes a 16 := by
  refine List.ext_getElem (by simp [State.readBytes]) fun k _ _ => ?_
  simp [State.readBytes]

/-- What stays when bytes are stored at a selection's place: all but the memory and the line. -/
theorem place_eq (s : State) (sel : Selection) (bs : List Byte) :
    ∃ mem line, s.place sel bs = { s with mem := mem, line := line } := by
  cases sel <;> exact ⟨_, _, rfl⟩

/-- The bytes at a selection's place depend on the configuration, the memory and the line only (R34). -/
theorem fetch_congr {s t : State} (hc : t.cfg = s.cfg) (hm : t.mem = s.mem) (hl : t.line = s.line)
    (sel : Selection) : t.fetch sel = s.fetch sel := by
  cases sel <;> simp only [State.fetch, State.readTile, State.readBytes, State.readByte, hc, hm, hl]

/-- A selection that is called finds a process that runs. -/
theorem withCall_mode_ne_ended (s : State) (sel : Selection) (e : Ending) :
    (s.withCall sel).mode ≠ .ended e := by
  unfold State.withCall
  simp only
  split
  · simp
  · simp
  · next hlive => exact hlive e

/-- A called selection is what the next step runs. -/
theorem step_withCall (s : State) (sel : Selection) :
    step (s.withCall sel) = select sel { s.withCall sel with calls := s.calls } :=
  step_call (withCall_mode_ne_ended s sel) rfl

/-- The selections a table word can stand for (log 19). -/
theorem tableSelection_cases {nbits w : Nat} {sel : Selection} {bs : List Byte}
    (h : tableSelection nbits w = some (sel, bs)) :
    sel = .line ∨ (sel = .pixel .foreground 0 0 0 ∧ bs.length = 16) ∨ (sel = .object 0 ∧ bs.length = 4) := by
  unfold tableSelection at h
  simp only at h
  split at h
  · split at h
    · cases h
      exact .inl rfl
    · cases h
      exact .inr (.inl ⟨rfl, by simp⟩)
  · cases h
    exact .inr (.inr ⟨rfl, rfl⟩)
  · cases h

/-- A table word placed where its selection is fetched from is fetched from there. -/
theorem fetch_place_tableSelection {s : State} (hwf : s.mem.wf = true) {nbits w : Nat} {sel : Selection}
    {bs : List Byte} (h : tableSelection nbits w = some (sel, bs)) : (s.place sel bs).fetch sel = bs := by
  obtain rfl | ⟨rfl, hlen⟩ | ⟨rfl, hlen⟩ := tableSelection_cases h
  · rfl
  · have hend : patternAddr s.cfg .foreground 0 + 16 ≤ 65536 := by
      simp only [patternAddr]
      omega
    exact (readTile_toList _ _).trans (readBytes_writeBytes hwf hlen hend)
  · have hend : objectAddr s.cfg 0 + 4 ≤ 65536 := by
      simp only [objectAddr]
      omega
    exact readBytes_writeBytes hwf hlen hend

/-- Reading a table word is decoding its bytes under its selection (log 19). -/
theorem decodeTableWord_eq_some {nbits w : Nat} {i : Instr} (h : decodeTableWord nbits w = some i) :
    ∃ sel bs rest, tableSelection nbits w = some (sel, bs) ∧ decode sel bs = some (i, rest) := by
  unfold decodeTableWord at h
  cases hsel : tableSelection nbits w with
  | none => simp [hsel] at h
  | some p =>
    simp only [hsel, Option.map_eq_some_iff] at h
    obtain ⟨⟨j, rest⟩, hword, rfl⟩ := h
    exact ⟨p.1, p.2, rest, rfl, hword⟩

/-- Settles O40: the placed bytes are fetched again, and placing and calling keep what the statement names. -/
theorem placedTableWordRunsNext : Obligations.PlacedTableWordRunsNext := by
  intro s nbits w i hwf hdecode
  obtain ⟨sel, bs, rest, hsel, hword⟩ := decodeTableWord_eq_some hdecode
  have hplaced : s.withFetchWord nbits w = (s.place sel bs).withCall sel := by rw [State.withFetchWord, hsel]
  have hfetch : ({ (s.place sel bs).withCall sel with calls := (s.place sel bs).calls } : State).fetch sel = bs :=
    (fetch_congr rfl rfl rfl sel).trans (fetch_place_tableSelection hwf hsel)
  rw [hplaced, step_withCall, select_some (hfetch.symm ▸ hword)]
  obtain ⟨mem, line, hplace⟩ := place_eq s sel bs
  rw [hplace]
  exact ⟨_, rfl, rfl, rfl, rfl, rfl⟩

/-- A turn at the prompt without a signal runs the line of its moment (R122). -/
theorem turn_prompt {s : State} {m : Moment} (hmode : s.mode = .prompt) (hclose : m.close = none) :
    turn m s = select .line ((s.sense m).readLine m) := by
  simp only [turn, hmode, hclose]

/-- Settles O39: a queued selection is called, and at the prompt the moment's line is read and selected. -/
theorem stepRunsDecodedOperation : Obligations.StepRunsDecodedOperation := by
  refine ⟨?queued, ?line, fun s m rest hinputs => nextMoment_queued hinputs,
    fun s hinputs => nextMoment_free hinputs⟩
  case queued =>
    intro s sel rest i bs hlive hcalls hdecode
    have hfetch : ({ s with calls := rest } : State).fetch sel = s.fetch sel := fetch_congr rfl rfl rfl sel
    rw [step_call hlive hcalls, select_some (hfetch.symm ▸ hdecode)]
  case line =>
    intro s s₁ m i bs hmode hcalls hnext hclose hline
    obtain ⟨inputs, drawn, heq⟩ := nextMoment_eq s
    rw [hnext] at heq
    obtain rfl : s₁ = _ := heq
    have hturn := turn_prompt (s := { s with inputs := inputs, drawn := drawn }) hmode hclose
    rw [step_turn (by simp [hmode]) hcalls, hnext, hturn]
    exact select_some hline

end Sys2Proof.Machine
end

section
/-! No address lies in two regions of a legal layout, and which region each record's bytes lie in (R33, R34). -/

namespace Sys2Proof.Config
open Machine

/-- One of the eight regions of R33, by its place in the list: first address and size. -/
def region (cfg : Config) (n : Fin 8) : Nat × Nat := cfg.regions[n.val]'n.isLt

/-- The address lies in that region. -/
def inRegion (cfg : Config) (n : Fin 8) (a : Nat) : Prop :=
  (cfg.region n).1 ≤ a ∧ a < (cfg.region n).1 + (cfg.region n).2

/-- No address lies in two regions of a legal layout (R33). -/
theorem inRegion_unique {cfg : Config} (hlayout : cfg.disjoint) {m n : Fin 8} {a : Nat} (hm : cfg.inRegion m a)
    (hn : cfg.inRegion n a) : m = n := by
  have happart : ∀ i j : Fin 8, i < j → apart (cfg.region i) (cfg.region j) := fun i j hij =>
    List.pairwise_iff_getElem.mp hlayout i j i.isLt j.isLt hij
  obtain ⟨hm₁, hm₂⟩ := hm
  obtain ⟨hn₁, hn₂⟩ := hn
  obtain hlt | heq | hlt := lt_trichotomy m n
  · have := happart m n hlt
    omega
  · exact heq
  · have := happart n m hlt
    omega

/-- The place of a pattern table in the list of R33. -/
def patternRegion : PatternTable → Fin 8
  | .foreground => 0
  | .background => 1

/-- The bytes of a pattern (R34). -/
theorem inRegion_pattern (cfg : Config) (table : PatternTable) (p : Fin 32) {j : Nat} (hj : j < 16) :
    cfg.inRegion (patternRegion table) (patternAddr cfg table p + j) := by
  have hoffset : 16 * p.val + j < 512 := by omega
  cases table <;> exact ⟨Nat.le_add_right_of_le (Nat.le_add_right _ _),
    (Nat.add_assoc _ _ _).trans_lt (Nat.add_lt_add_left hoffset _)⟩

theorem inRegion_nametable (cfg : Config) (i : Cell) : cfg.inRegion 2 (nametableAddr cfg i) :=
  ⟨Nat.le_add_right _ _, Nat.add_lt_add_left i.isLt _⟩

theorem inRegion_bgpal (cfg : Config) : cfg.inRegion 3 cfg.bgpalAddr.val :=
  ⟨Nat.le_refl _, Nat.lt_succ_self _⟩

/-- The bytes of an object entry (R34). -/
theorem inRegion_object (cfg : Config) (k : ObjSlot) {j : Nat} (hj : j < 4) :
    cfg.inRegion 4 (objectAddr cfg k + j) := by
  have hoffset : 4 * k.val + j < 256 := by omega
  exact ⟨Nat.le_add_right_of_le (Nat.le_add_right _ _),
    (Nat.add_assoc _ _ _).trans_lt (Nat.add_lt_add_left hoffset _)⟩

theorem inRegion_text (cfg : Config) (i : Cell) : cfg.inRegion 5 (textAddr cfg i) :=
  ⟨Nat.le_add_right _ _, Nat.add_lt_add_left i.isLt _⟩

end Sys2Proof.Config
end

section
/-! The unnamed bits of object entries and of `BGPAL` do not show (R60, R81, R104). -/

namespace Sys2Proof.Machine

/-! ### Entries and register bytes that agree in their named bits -/

/-- `pattern_config` bytes that agree below bit 7 and hue bytes that agree below bit 3 give one entry (R60). -/
theorem objeOfBytes_congr (x y : Byte) {c₁ c₂ h₁ h₂ : Byte} (hc : c₁.toNat % 128 = c₂.toNat % 128)
    (hh : h₁.toNat % 8 = h₂.toNat % 8) : Obje.ofBytes x y c₁ h₁ = Obje.ofBytes x y c₂ h₂ := by
  have hhflip : bit c₁ 6 = bit c₂ 6 := bit_congr (n := 7) hc 6 (by decide)
  have hvflip : bit c₁ 5 = bit c₂ 5 := bit_congr (n := 7) hc 5 (by decide)
  have hpat : bits c₁ 0 5 = bits c₂ 0 5 := bits_congr (n := 7) hc 0 5 (by decide)
  have hhue : bits h₁ 0 3 = bits h₂ 0 3 := bits_congr (n := 3) hh 0 3 (by decide)
  simp only [Obje.ofBytes, hhflip, hvflip, hpat, hhue]

/-- `BGPAL` bytes that agree below bit 6 have the same two hues at the positions 0 and 3 (R60). -/
theorem bgHues_congr {cfg : Config} (h₀ : cfg.hue0Lsb = 0) (h₁ : cfg.hue1Lsb = 3) {b₁ b₂ : Byte}
    (hb : b₁.toNat % 64 = b₂.toNat % 64) :
    bgHue0 cfg b₁ = bgHue0 cfg b₂ ∧ bgHue1 cfg b₁ = bgHue1 cfg b₂ := by
  rw [bgHue0, bgHue0, bgHue1, bgHue1, h₀, h₁]
  exact ⟨bits_congr (n := 6) hb 0 3 (by decide), bits_congr (n := 6) hb 3 3 (by decide)⟩

/-! ### Frames -/

/-- Two states whose layers are the same blits under one palette compose one frame (R104). -/
theorem compose_fb_congr {s t : State} (hpal : s.pal = t.pal)
    (hbg : ∀ i, backgroundBlit s i (s.nametableEntry i) = backgroundBlit t i (t.nametableEntry i))
    (hobj : ∀ k, objectBlit s (s.objectEntry k) = objectBlit t (t.objectEntry k))
    (htext : ∀ i, textBlit s i (s.textEntry i) = textBlit t i (t.textEntry i)) :
    s.compose.fb = t.compose.fb := by
  refine FrameBuffer.ext_pixel fun x y => ?_
  simp only [pixel_compose, textColour, objectColour, backgroundColour, hpal, hbg, hobj, htext]

/-- Two states that differ in the unnamed bits of `BGPAL` and of the object entries only, in a legal layout with
the hues at the spec's positions (R60). -/
structure SameNamedBits (s t : State) : Prop where
  layout : s.cfg.disjoint
  hue0 : s.cfg.hue0Lsb = 0
  hue1 : s.cfg.hue1Lsb = 3
  memory : t = { s with mem := t.mem }
  named : ∀ a : Nat, a ≠ s.cfg.bgpalAddr.val →
    (∀ k : ObjSlot, a ≠ objectAddr s.cfg k + 2 ∧ a ≠ objectAddr s.cfg k + 3) → s.mem.read a = t.mem.read a
  bgpal : (s.mem.read s.cfg.bgpalAddr.val).toNat % 64 = (t.mem.read s.cfg.bgpalAddr.val).toNat % 64
  objects : ∀ k : ObjSlot,
    (s.mem.read (objectAddr s.cfg k + 2)).toNat % 128 = (t.mem.read (objectAddr s.cfg k + 2)).toNat % 128 ∧
    (s.mem.read (objectAddr s.cfg k + 3)).toNat % 8 = (t.mem.read (objectAddr s.cfg k + 3)).toNat % 8

namespace SameNamedBits

section
variable {s t : State} (h : SameNamedBits s t)
include h

theorem cfg_eq : t.cfg = s.cfg := (congrArg State.cfg h.memory).trans rfl
theorem pal_eq : t.pal = s.pal := (congrArg State.pal h.memory).trans rfl
theorem font_eq : t.font = s.font := (congrArg State.font h.memory).trans rfl
theorem fb_eq : t.fb = s.fb := (congrArg State.fb h.memory).trans rfl

/-- A region other than those of `BGPAL` and of the object entries has no unnamed bit (R33, R60). -/
theorem read_region {n : Fin 8} (hbgpal : n ≠ 3) (hobject : n ≠ 4) {a : Nat} (ha : s.cfg.inRegion n a) :
    s.mem.read a = t.mem.read a := by
  refine h.named a ?_ fun k => ⟨?_, ?_⟩
  · rintro rfl
    exact hbgpal (Config.inRegion_unique h.layout ha (Config.inRegion_bgpal s.cfg))
  · rintro rfl
    exact hobject (Config.inRegion_unique h.layout ha (Config.inRegion_object s.cfg k (by decide)))
  · rintro rfl
    exact hobject (Config.inRegion_unique h.layout ha (Config.inRegion_object s.cfg k (by decide)))

/-- The first two bytes of an object entry have no unnamed bit (R53, R60). -/
theorem read_position (k : ObjSlot) {j : Nat} (hj : j < 2) :
    s.mem.read (objectAddr s.cfg k + j) = t.mem.read (objectAddr s.cfg k + j) := by
  refine h.named _ (fun hbgpal => ?_) fun k' => ?_
  · have hobject := Config.inRegion_object s.cfg k (show j < 4 by omega)
    rw [hbgpal] at hobject
    exact absurd (Config.inRegion_unique h.layout hobject (Config.inRegion_bgpal s.cfg)) (by decide)
  · simp only [objectAddr]
    omega

theorem readTile_eq (table : PatternTable) (p : Fin 32) :
    s.readTile (patternAddr s.cfg table p) = t.readTile (patternAddr s.cfg table p) := by
  refine Vector.ext fun j hj => ?_
  rw [readTile_getElem, readTile_getElem]
  exact h.read_region (by cases table <;> decide) (by cases table <;> decide)
    (Config.inRegion_pattern s.cfg table p hj)

theorem nametableEntry_eq (i : Cell) : s.nametableEntry i = t.nametableEntry i := by
  rw [State.nametableEntry, State.nametableEntry, h.cfg_eq,
    h.read_region (by decide) (by decide) (Config.inRegion_nametable s.cfg i)]

theorem textEntry_eq (i : Cell) : s.textEntry i = t.textEntry i := by
  rw [State.textEntry, State.textEntry, h.cfg_eq,
    h.read_region (by decide) (by decide) (Config.inRegion_text s.cfg i)]

theorem objectEntry_eq (k : ObjSlot) : s.objectEntry k = t.objectEntry k := by
  obtain ⟨hconfig, hcolor⟩ := h.objects k
  have hx : s.mem.read (objectAddr s.cfg k) = t.mem.read (objectAddr s.cfg k) :=
    h.read_position k (j := 0) (by decide)
  have hy := h.read_position k (j := 1) (by decide)
  simp only [State.objectEntry, h.cfg_eq, hx, hy]
  exact objeOfBytes_congr _ _ hconfig hcolor

theorem backgroundBlit_eq (i : Cell) (e : Nte) : backgroundBlit s i e = backgroundBlit t i e := by
  obtain ⟨hhue0, hhue1⟩ := bgHues_congr h.hue0 h.hue1 h.bgpal
  simp only [backgroundBlit, backgroundHue, State.readByte, h.cfg_eq, h.readTile_eq, hhue0, hhue1]

theorem objectBlit_eq (o : Obje) : objectBlit s o = objectBlit t o := by
  simp only [objectBlit, h.cfg_eq, h.readTile_eq]

theorem textBlit_eq (i : Cell) (e : Txte) : textBlit s i e = textBlit t i e := by
  simp only [textBlit, h.cfg_eq, h.font_eq]

/-- One background cell shows no unnamed bit (R81). -/
theorem bgtile_eq (i : Cell) (e : Nte) :
    blitInto s.pal (backgroundBlit s i e) s.fb = blitInto t.pal (backgroundBlit t i e) t.fb := by
  rw [h.backgroundBlit_eq, h.pal_eq, h.fb_eq]

/-- A composed frame shows no unnamed bit (R104). -/
theorem compose_fb_eq : s.compose.fb = t.compose.fb :=
  compose_fb_congr h.pal_eq.symm (fun i => by rw [h.nametableEntry_eq, h.backgroundBlit_eq])
    (fun k => by rw [h.objectEntry_eq, h.objectBlit_eq]) fun i => by rw [h.textEntry_eq, h.textBlit_eq]

end

end SameNamedBits

/-- Settles O4: entries and register bytes that agree in their named bits are read alike, so every blit of the two
states is the same. -/
theorem unnamedBitsAreIgnored : Obligations.UnnamedBitsAreIgnored := by
  refine ⟨?entry, ?register, ?memories⟩
  case entry =>
    intro k x y c₁ c₂ h₁ h₂ rest hc hh
    simp only [decode, objeOfBytes_congr x y hc hh]
  case register =>
    intro s b₁ b₂ hhue0 hhue1 hb
    obtain ⟨h₀, h₁⟩ := bgHues_congr hhue0 hhue1 hb
    exact ⟨_, exec_bgpal b₁ s, by rw [exec_bgpal, h₀, h₁]⟩
  case memories =>
    intro s t hlayout hhue0 hhue1 hmemory hnamed hbgpal hobjects
    have h : SameNamedBits s t := ⟨hlayout, hhue0, hhue1, hmemory, hnamed, hbgpal, hobjects⟩
    exact ⟨fun i e => ⟨_, _, exec_bgtile i e s, exec_bgtile i e t, h.bgtile_eq i e⟩,
      _, _, exec_compose s, exec_compose t, h.compose_fb_eq⟩

end Sys2Proof.Machine
end

section
/-! The Pattern Decoder: the four shades of a byte, and records and grids as inverse images of each other
(R70, R71, R73). -/

namespace Sys2Proof.Machine

/-! ### The four shades of a byte (R73) -/

/-- Shade `j` of a byte, the most significant pair first. -/
def byteShade (b : Byte) (j : Fin 4) : Shade := bits b (6 - 2 * j.val) 2

/-- The byte whose shades are `f`. -/
def shadesByte (f : Fin 4 → Shade) : Byte :=
  BitVec.ofNat 8 (64 * (f 0).val + 16 * (f 1).val + 4 * (f 2).val + (f 3).val)

theorem byteShade_val (b : Byte) (j : Fin 4) : (byteShade b j).val = b.toNat / 2 ^ (6 - 2 * j.val) % 4 :=
  bits_val b _ 2

/-- The four shades of a byte as numbers (R73). -/
theorem byteShade_vals (b : Byte) :
    (byteShade b 0).val = b.toNat / 64 % 4 ∧ (byteShade b 1).val = b.toNat / 16 % 4 ∧
    (byteShade b 2).val = b.toNat / 4 % 4 ∧ (byteShade b 3).val = b.toNat / 1 % 4 :=
  ⟨byteShade_val b 0, byteShade_val b 1, byteShade_val b 2, byteShade_val b 3⟩

theorem shadesByte_toNat (f : Fin 4 → Shade) :
    (shadesByte f).toNat = 64 * (f 0).val + 16 * (f 1).val + 4 * (f 2).val + (f 3).val := by
  rw [shadesByte, BitVec.toNat_ofNat, Nat.mod_eq_of_lt (by omega)]

@[simp] theorem shadesByte_byteShade (b : Byte) : shadesByte (byteShade b) = b := by
  refine BitVec.eq_of_toNat_eq ?_
  obtain ⟨h0, h1, h2, h3⟩ := byteShade_vals b
  have hbyte := b.isLt
  rw [shadesByte_toNat]
  omega

@[simp] theorem byteShade_shadesByte (f : Fin 4 → Shade) (j : Fin 4) : byteShade (shadesByte f) j = f j := by
  obtain ⟨h0, h1, h2, h3⟩ := byteShade_vals (shadesByte f)
  rw [shadesByte_toNat] at h0 h1 h2 h3
  refine Fin.ext ?_
  match j with
  | 0 | 1 | 2 | 3 => omega

/-! ### Records and grids (R70, R71) -/

/-- `PDEC` picks the byte by the row and the half of the row, and the shade by the column in that half (R70). -/
theorem patternShade_eq (p : Tile) (r c : TileCoord) : patternShade p r c
    = byteShade (p[2 * r.val + c.val / 4]'(by omega)) ⟨c.val % 4, by omega⟩ := rfl

/-- A cell of `PDECT`'s grid is the `PDEC` result of its row and column (R71). -/
theorem patternGrid_getElem (p : Tile) (r c : TileCoord) : (patternGrid p)[r][c] = patternShade p r c := by
  simp only [patternGrid, Fin.getElem_fin, Vector.getElem_ofFn]

/-- The record whose grid is `g`: byte `k` holds the half `k mod 2` of row `k div 2` (R70). -/
def gridPattern (g : Grid) : Tile := Vector.ofFn fun k => shadesByte fun j =>
  (g[k.val / 2]'(by omega))[4 * (k.val % 2) + j.val]'(by omega)

theorem gridPattern_patternGrid : Function.LeftInverse gridPattern patternGrid := by
  intro p
  refine Vector.ext fun k hk => ?_
  have hbyte (j : Fin 4) : 2 * (k / 2) + (4 * (k % 2) + j.val) / 4 = k := by omega
  have hshade (j : Fin 4) : (4 * (k % 2) + j.val) % 4 = j.val := by omega
  simp only [gridPattern, patternGrid, Vector.getElem_ofFn, patternShade_eq, hbyte, hshade]
  exact shadesByte_byteShade p[k]

theorem patternShade_gridPattern (g : Grid) (r c : TileCoord) : patternShade (gridPattern g) r c = g[r][c] := by
  have hrow : (2 * r.val + c.val / 4) / 2 = r.val := by omega
  have hcol : 4 * ((2 * r.val + c.val / 4) % 2) + c.val % 4 = c.val := by omega
  simp only [patternShade_eq, gridPattern, Vector.getElem_ofFn, byteShade_shadesByte, hrow, hcol]
  rfl

theorem patternGrid_gridPattern : Function.RightInverse gridPattern patternGrid := by
  intro g
  refine Vector.ext fun r hr => Vector.ext fun c hc => ?_
  calc (patternGrid (gridPattern g))[r][c]
    _ = patternShade (gridPattern g) ⟨r, hr⟩ ⟨c, hc⟩ := patternGrid_getElem _ ⟨r, hr⟩ ⟨c, hc⟩
    _ = g[r][c] := patternShade_gridPattern g ⟨r, hr⟩ ⟨c, hc⟩

/-- Equal results of `PDECT` are equal grids. -/
theorem patternGrid_eq_of_exec_pdect {p q : Tile} {s : State} (h : exec (.pdect p) s = exec (.pdect q) s) :
    patternGrid p = patternGrid q := by
  rw [exec_pdect, exec_pdect] at h
  exact Reply.grid.inj (congrArg State.reply (Host.Outcome.next.inj h))

/-- Settles O9: `gridPattern` undoes the decoding of a record, and every grid is the decoding of its record. -/
theorem pdectIsBijection : Obligations.PdectIsBijection := by
  refine ⟨fun p s => ⟨patternGrid p, exec_pdect p s, fun r c => ?cells⟩, fun p q s h => ?injective,
    fun g s => ⟨gridPattern g, ?surjective⟩⟩
  case cells => rw [exec_pdec, patternGrid_getElem]
  case injective => exact gridPattern_patternGrid.injective (patternGrid_eq_of_exec_pdect h)
  case surjective => rw [exec_pdect, patternGrid_gridPattern g]

/-- Settles O8: the shade is shade `c mod 4` of the byte, whose value is a quotient and a remainder. -/
theorem pdecReturnsBitPair : Obligations.PdecReturnsBitPair := fun p r c s =>
  ⟨patternShade p r c, exec_pdec p r c s, byteShade_val _ ⟨c.val % 4, by omega⟩⟩

end Sys2Proof.Machine
end

section
/-! The Palette Table: what `PINIT` leaves and `PLUT` answers, and that no command, event or CPU store reaches `PAL`
or `FONT` (R75 to R78, R171). -/

namespace Sys2Proof.Machine

/-! ### `PINIT` and `PLUT` (R75 to R77) -/

/-- Settles O10: `PINIT` is one update of `PAL`, whose entries are scaled colours. -/
theorem pinitDerivesPalette : Obligations.PinitDerivesPalette := fun full s =>
  ⟨_, exec_pinit full s, rfl, paletteColour_derivePalette full⟩

@[simp] theorem scaleColour_zero (full : Colour) : scaleColour full 0 = ⟨0, 0, 0⟩ := by
  simp [scaleColour, scaleChannel]

@[simp] theorem scaleColour_three (full : Colour) : scaleColour full 3 = full := by
  simp [scaleColour]

/-- A channel does not fall as the shade rises (R76 c). -/
theorem scaleChannel_mono (full : Nat) {a b : Nat} (h : a ≤ b) : scaleChannel full a ≤ scaleChannel full b :=
  Nat.div_le_div_right (Nat.mul_le_mul_left full h)

/-- Settles O11: each invariant is one of scaling a channel, and the range is that of the whole palette. -/
theorem paletteInvariants : Obligations.PaletteInvariants := by
  intro full chMax s hfull
  refine ⟨_, exec_pinit full s, fun h => ⟨?black, ?full, fun a b hab => ?rising,
    paletteWithin_derivePalette hfull h⟩⟩
  case black => rw [paletteColour_derivePalette, scaleColour_zero]
  case full => rw [paletteColour_derivePalette, scaleColour_three]
  case rising =>
    simp only [paletteColour_derivePalette]
    exact ⟨scaleChannel_mono _ hab, scaleChannel_mono _ hab, scaleChannel_mono _ hab⟩

/-- Settles O12: `PLUT` answers the entry that both indices name. -/
theorem plutLooksColourUp : Obligations.PlutLooksColourUp := exec_plut

/-! ### What one operation can do to `PAL` and `FONT` -/

/-- The two lookup tables of `t` are those of `s`. -/
def SameTables (s t : State) : Prop := t.pal = s.pal ∧ t.font = s.font

/-- One turn of a stepping command stores, and may compose (R126, R127). -/
theorem sameTables_commandCycle (s : State) (want : CpuResult) (m : Moment) :
    SameTables s (s.commandCycle want m) := by
  obtain ⟨c, -, heq⟩ | ⟨-, -, heq⟩ | ⟨-, -, heq⟩ := commandCycle_cases s want m <;> rw [heq]
  · exact ⟨rfl, rfl⟩
  · exact ⟨rfl, rfl⟩
  · exact ⟨(State.enterMonitor_pal _).trans (State.compose_pal _),
      (State.enterMonitor_font _).trans (State.compose_font _)⟩

/-- The loop of a stepping command, whether it returns or waits (R126, R127). -/
theorem sameTables_commandLoop (s : State) (want : CpuResult) (ms : List Moment) :
    SameTables s (commandLoop want ms s) :=
  commandLoop_keeps (P := SameTables s)
    (fun m _ u ⟨hpal, hfont⟩ =>
      have ⟨hpal', hfont'⟩ := sameTables_commandCycle u want m
      ⟨hpal'.trans hpal, hfont'.trans hfont⟩)
    (fun _ _ hu => hu) ⟨rfl, rfl⟩

/-- `FBRD` reads a pixel, specified or not (R102). -/
theorem sameTables_execFbrd {x : Fin 256} {y : Fin 240} {s t : State} (h : execFbrd x y s = .next t) :
    SameTables s t := by
  unfold execFbrd at h
  split at h <;> cases h <;> exact ⟨rfl, rfl⟩

/-- `dump` writes a file or reports (R129). -/
theorem sameTables_execDump {s t : State} (h : execDump s = .next t) : SameTables s t := by
  unfold execDump at h
  split at h <;> cases h <;> exact ⟨rfl, rfl⟩

/-- Everything an operation can do to the tables: nothing, `PINIT` and `FINIT` one of them each, `RESET` both
(R78, R161, R171). -/
theorem exec_tables_cases {i : Instr} {s t : State} (h : exec i s = .next t) :
    SameTables s t ∨ (∃ full, i = .pinit full ∧ t.font = s.font) ∨ (∃ img, i = .finit img ∧ t.pal = s.pal) ∨
    ∃ l, i = .reset l := by
  cases i with
  | pinit full => cases h; exact .inr (.inl ⟨full, rfl, rfl⟩)
  | finit img => cases h; exact .inr (.inr (.inl ⟨img, rfl, rfl⟩))
  | reset l => exact .inr (.inr (.inr ⟨l, rfl⟩))
  | step => cases h; exact .inl (sameTables_commandLoop { s with mode := .executingStep } _ _)
  | frame => cases h; exact .inl (sameTables_commandLoop { s with mode := .executingFrame } _ _)
  | compose => rw [exec_compose] at h; cases h; exact .inl ⟨State.compose_pal s, State.compose_font s⟩
  | framesync => rw [exec_framesync] at h; cases h; exact .inl ⟨State.frameSync_pal s, State.frameSync_font s⟩
  | bgwalk => cases h; exact .inl ⟨State.drawBackground_pal s, State.drawBackground_font s⟩
  | objwalk => cases h; exact .inl ⟨State.drawObjects_pal s, State.drawObjects_font s⟩
  | txtwalk => cases h; exact .inl ⟨State.drawText_pal s, State.drawText_font s⟩
  | fbrd x y => exact .inl (sameTables_execFbrd h)
  | dump => exact .inl (sameTables_execDump h)
  | pdec | bgtile | objdraw | txtcell | bgpal | inlatch | pdect | plut | fbclr | fbwr | blit | halt | help | peek
  | run | quit => cases h; exact .inl ⟨rfl, rfl⟩

/-! ### What one turn can do to `PAL` and `FONT` -/

/-- Everything an operator's line can select: the operation it decodes to, or the usage text (R124, R133). -/
theorem select_line_cases (s : State) :
    (∃ i, decodeLine s.line = some i ∧ select .line s = exec i s) ∨
    (decodeLine s.line = none ∧ select .line s = .next s.showUsage) := by
  cases hline : decodeLine s.line with
  | some i => exact .inl ⟨i, rfl, select_some (bs := []) (by simp [decode, fetch_line, hline])⟩
  | none => exact .inr ⟨rfl, select_none (by simp [decode, fetch_line, hline])⟩

/-- No operator's line selects an operation that writes a table (R78, R124). -/
theorem sameTables_exec_decodeLine {line : List Byte} {i : Instr} {s t : State} (hline : decodeLine line = some i)
    (h : exec i s = .next t) : SameTables s t := by
  obtain hsame | ⟨_, rfl, -⟩ | ⟨_, rfl, -⟩ | ⟨_, rfl⟩ := exec_tables_cases h
  · exact hsame
  all_goals simpa using decodeLine_cases hline

theorem sameTables_select_line {s t : State} (h : select .line s = .next t) : SameTables s t := by
  obtain ⟨i, hline, hsel⟩ | ⟨-, hsel⟩ := select_line_cases s <;> rw [hsel] at h
  · exact sameTables_exec_decodeLine hline h
  · cases h; exact ⟨rfl, rfl⟩

theorem sameTables_select_event {r : CpuResult} {s t : State} (h : select (.event r) s = .next t) :
    SameTables s t := by
  obtain ⟨-, hsel⟩ | ⟨-, hsel⟩ | ⟨-, hsel⟩ := select_event_cases r s <;> rw [hsel] at h <;> cases h
  · exact ⟨State.frameSync_pal s, State.frameSync_font s⟩
  · exact ⟨rfl, rfl⟩
  · exact ⟨rfl, rfl⟩

/-- A turn keeps the tables in every mode, close signal or not (R78, R143, R155). -/
theorem sameTables_turn {m : Moment} {s t : State} (h : turn m s = .next t) : SameTables s t := by
  cases hmode : s.mode with
  | ended e => simp only [turn, hmode] at h; cases h; exact ⟨rfl, rfl⟩
  | running =>
    obtain ⟨c, -, hturn⟩ | ⟨-, hturn⟩ := turn_running_cases hmode m <;> rw [hturn] at h
    · cases h; exact ⟨rfl, rfl⟩
    · exact (sameTables_select_event h :)
  | prompt =>
    cases hclose : m.close with
    | none => rw [turn_prompt hmode hclose] at h; exact (sameTables_select_line h :)
    | some c => simp only [turn, hmode, hclose] at h; cases h; exact ⟨rfl, rfl⟩
  | executingStep => simp only [turn, hmode] at h; cases h; exact sameTables_commandCycle s _ m
  | executingFrame => simp only [turn, hmode] at h; cases h; exact sameTables_commandCycle s _ m

/-- With no queued call a step is a turn at the next moment, or leaves an ended process (R78, R171). -/
theorem sameTables_step {s t : State} (hcalls : s.calls = []) (h : step s = .next t) : SameTables s t := by
  by_cases hended : ∃ e, s.mode = .ended e
  · obtain ⟨e, he⟩ := hended
    rw [step_ended he] at h
    cases h
    exact ⟨rfl, rfl⟩
  · obtain ⟨inputs, drawn, heq⟩ := nextMoment_eq s
    rw [step_turn (not_exists.mp hended) hcalls, heq] at h
    exact sameTables_turn (s := { s with inputs := inputs, drawn := drawn }) h

/-- Settles O13, by what a step without a queued call and what one operation can do to the tables. -/
theorem tablesChangeOnlyAtReset : Obligations.TablesChangeOnlyAtReset := by
  refine ⟨fun s t hcalls hstep => sameTables_step hcalls hstep, fun i s t hexec hreset => ?_⟩
  obtain ⟨hpal, hfont⟩ | ⟨full, hi, hfont⟩ | ⟨img, hi, hpal⟩ | ⟨l, hi⟩ := exec_tables_cases hexec
  · exact ⟨fun _ => hpal, fun _ => hfont⟩
  · exact ⟨fun hpinit => absurd hi (hpinit full), fun _ => hfont⟩
  · exact ⟨fun _ => hpal, fun hfinit => absurd hi (hfinit img)⟩
  · exact absurd hi (hreset l)

end Sys2Proof.Machine
end

section
/-! The Background Compositor: the cells tile the screen, `BGTILE` draws its own cell and `BGWALK` every one of them
(R80 to R84). -/

namespace Sys2Proof.Machine

/-! ### The cells of the grid (R80) -/

/-- A pixel of cell `i` is the destination of one tile pixel of that cell. -/
theorem exists_tileCoord_of_cellAt {i : Cell} {x : Fin 256} {y : Fin 240} (h : cellAt x y = i) :
    ∃ r c : TileCoord, (cellX i).val + c.val = x.val ∧ (cellY i).val + r.val = y.val := by
  obtain ⟨hx, hy⟩ := (inCell_iff i x y).mpr h
  exact ⟨⟨y.val - (cellY i).val, by omega⟩, ⟨x.val - (cellX i).val, by omega⟩,
    Nat.add_sub_of_le hx.1, Nat.add_sub_of_le hy.1⟩

/-- A blit placed on a cell paints no pixel of another cell (R80, R103). -/
theorem blitColour_other_cell (pal : Palette) {b : Blit} {i : Cell} (hox : b.ox = cellX i) (hoy : b.oy = cellY i)
    {x : Fin 256} {y : Fin 240} (h : cellAt x y ≠ i) : blitColour pal b x y = none := by
  refine blitColour_outside pal b x y ?_
  rw [hox, hoy, inCell_iff]
  exact h

/-! ### What a background cell paints (R81, R103) -/

/-- A set flip counts the coordinate from the far edge (R103). -/
theorem mirrored_eq (flip : Bool) (k : TileCoord) : mirrored flip k = if flip = true then 7 - k else k := by
  rw [mirrored, ← Fin.last_sub k]
  rfl

/-- The entry selects one of the two configured fields of the register (R57, R83). -/
theorem backgroundHue_eq (cfg : Config) (bgpal : Byte) (e : Nte) : backgroundHue cfg bgpal e
    = hueField bgpal (if e.hsel = true then cfg.hue1Lsb else cfg.hue0Lsb) :=
  (apply_ite (hueField bgpal) _ _ _).symm

/-- `BGTILE` leaves the pixels of every other cell (R81). -/
theorem pixel_bgtile_other_cell (s : State) {i : Cell} (e : Nte) {x : Fin 256} {y : Fin 240} (h : cellAt x y ≠ i) :
    (blitInto s.pal (backgroundBlit s i e) s.fb).pixel x y = s.fb.pixel x y := by
  rw [pixel_blitInto, blitColour_other_cell s.pal (backgroundBlit_ox s i e) (backgroundBlit_oy s i e) h,
    Option.none_or]

/-- The background is opaque: `BGTILE` writes each pixel of its cell from the mirrored source pixel (R81, R84). -/
theorem pixel_bgtile_own_cell (s : State) {i : Cell} (e : Nte) {x : Fin 256} {y : Fin 240} {r c : TileCoord}
    (hx : (cellX i).val + c.val = x.val) (hy : (cellY i).val + r.val = y.val) :
    (blitInto s.pal (backgroundBlit s i e) s.fb).pixel x y
      = some (paletteColour s.pal (backgroundHue s.cfg (s.readByte s.cfg.bgpalAddr) e)
          (patternShade (s.readTile (patternAddr s.cfg .background e.pat))
            (mirrored e.vflip r) (mirrored e.hflip c))) := by
  rw [pixel_blitInto, blitColour_inside s.pal (backgroundBlit s i e) hx hy, if_neg (by simp), Option.some_or]
  exact congrArg (fun sh => some (paletteColour s.pal _ sh)) (patternGrid_getElem _ _ _)

/-! ### The cells, one of them and all of them -/

/-- Settles O14: lying in a cell's square is being covered by it, and `BGTILE` writes its own cell only. -/
theorem cellsTileTheScreen : Obligations.CellsTileTheScreen := by
  refine ⟨fun i => ⟨rfl, rfl⟩, fun x y => ⟨cellAt x y, rfl, ?inside, ?unique, fun j e s =>
    ⟨_, exec_bgtile j e s, ?own, ?other⟩⟩⟩
  case inside =>
    have hin := (inCell_iff (cellAt x y) x y).mpr rfl
    omega
  case unique =>
    intro j hx₀ hx₇ hy₀ hy₇
    exact ((inCell_iff j x y).mp (by omega)).symm
  case own =>
    intro hj
    obtain ⟨r, c, hx, hy⟩ := exists_tileCoord_of_cellAt hj.symm
    exact ⟨_, _, pixel_bgtile_own_cell s e hx hy⟩
  case other => exact fun hj => pixel_bgtile_other_cell s e (Ne.symm hj)

/-- Settles O16, by what `BGTILE` does to a pixel of another cell and to one of its own. -/
theorem bgtileDrawsItsCell : Obligations.BgtileDrawsItsCell := by
  refine fun i e s => ⟨_, exec_bgtile i e s, rfl, fun x y h => pixel_bgtile_other_cell s e h, ?own⟩
  case own =>
    intro x y r c hx hy bgpal hue pattern sr sc
    calc (blitInto s.pal (backgroundBlit s i e) s.fb).pixel x y
      _ = some (paletteColour s.pal (backgroundHue s.cfg bgpal e)
            (patternShade pattern (mirrored e.vflip r) (mirrored e.hflip c))) :=
          pixel_bgtile_own_cell s e hx.symm hy.symm
      _ = some (paletteColour s.pal hue (patternShade pattern sr sc)) := by
          rw [backgroundHue_eq, mirrored_eq, mirrored_eq]

/-- `BGWALK` changes nothing but the buffer (R82). -/
theorem drawBackground_frame (s : State) : s.drawBackground = s.setFb s.drawBackground.fb := by
  rw [State.drawBackground_fb, State.drawBackground]

/-- Settles O17: the entry of its cell paints every pixel over whatever stood there. -/
theorem bgwalkPaintsEveryPixel : Obligations.BgwalkPaintsEveryPixel := by
  refine fun s => ⟨s.drawBackground, exec_bgwalk s, drawBackground_frame s, fun x y => ?_⟩
  obtain ⟨h, sh, hpaint⟩ := backgroundColour_palette s x y
  have hpixel : s.drawBackground.fb.pixel x y = some (paletteColour s.pal h sh) := by
    rw [State.drawBackground_fb, pixel_walkBackground, hpaint, Option.some_or]
  rw [hpixel, hpaint]
  exact ⟨rfl, rfl⟩

end Sys2Proof.Machine
end

section
/-! The Object Compositor: what one object paints, that it is clipped, and that the lowest slot shows (R87 to R92). -/

namespace Sys2Proof.Machine

/-! ### What an object paints (R87, R90) -/

/-- The shade of the source pixel that the entry's flips bring to row `r`, column `c` of its square (R57, R87). -/
def objectShade (s : State) (o : Obje) (r c : TileCoord) : Shade :=
  patternShade (s.readTile (patternAddr s.cfg .foreground o.pat)) (mirrored o.vflip r) (mirrored o.hflip c)

/-- At the destination of a tile pixel an object paints that pixel's shade, unless it is 0 (R87, R90). -/
theorem blitColour_object_inside (s : State) (o : Obje) {x : Fin 256} {y : Fin 240} {r c : TileCoord}
    (hx : x.val = o.x.val + c.val) (hy : y.val = o.y.val + r.val) :
    blitColour s.pal (objectBlit s o) x y =
      if objectShade s o r c = 0 then none else some (paletteColour s.pal o.hue (objectShade s o r c)) := by
  rw [objectShade, ← patternGrid_getElem, blitColour_inside s.pal (objectBlit s o) hx.symm hy.symm,
    objectBlit_transparent0, Bool.true_and]
  exact if_congr decide_eq_true_iff rfl rfl

/-- An object whose top edge lies below the buffer paints no pixel of it (R91, R92). -/
theorem blitColour_object_parked (s : State) {o : Obje} (hparked : 240 ≤ o.y.val) (x : Fin 256) (y : Fin 240) :
    blitColour s.pal (objectBlit s o) x y = none := by
  refine blitColour_outside s.pal (objectBlit s o) x y ?_
  rw [objectBlit_oy]
  omega

/-! ### One object (R87, R91, R92) -/

/-- Settles O19: a pixel outside the square is painted by nothing, one inside it by its mirrored source pixel. -/
theorem objdrawSkipsShadeZeroAndClips : Obligations.ObjdrawSkipsShadeZeroAndClips := by
  refine fun k o s => ⟨_, exec_objdraw k o s, rfl, fun x y houtside => ?outside, ?inside⟩
  case outside =>
    have hnone : blitColour s.pal (objectBlit s o) x y = none := by
      refine blitColour_outside s.pal (objectBlit s o) x y ?_
      rw [objectBlit_ox, objectBlit_oy]
      omega
    rw [State.setFb_fb, pixel_blitInto, hnone, Option.none_or]
  case inside =>
    intro x y r c hx hy pattern sr sc sh
    have hshade : objectShade s o r c = sh := by
      rw [objectShade, mirrored_eq, mirrored_eq]
      rfl
    rw [State.setFb_fb, pixel_blitInto, blitColour_object_inside s o hx hy, hshade]
    split
    case isTrue => exact Option.none_or
    case isFalse => exact Option.some_or

/-- Settles O20: such an object leaves every pixel, so the buffer and with it the state stay. -/
theorem parkedObjectDrawsNothing : Obligations.ParkedObjectDrawsNothing := by
  intro k o s hparked
  have hfb : blitInto s.pal (objectBlit s o) s.fb = s.fb := FrameBuffer.ext_pixel fun x y => by
    rw [pixel_blitInto, blitColour_object_parked s hparked, Option.none_or]
  rw [exec_objdraw, hfb]
  rfl

/-! ### All objects (R88, R89) -/

/-- `OBJWALK` changes nothing but the buffer (R88). -/
theorem drawObjects_frame (s : State) : s.drawObjects = s.setFb s.drawObjects.fb := by
  rw [State.drawObjects_fb, State.drawObjects]

/-- The objects' colour at a pixel is a search over the slots in rising order (R89). -/
theorem objectColour_eq_findSome? (s : State) (x : Fin 256) (y : Fin 240) : objectColour s x y
    = Fin.findSome? fun k : ObjSlot => blitColour s.pal (objectBlit s (s.objectEntry k)) x y :=
  (Fin.findSome?_eq_findSome?_finRange _).symm

/-- `OBJWALK` seen at one pixel (R88). -/
theorem pixel_drawObjects (s : State) (x : Fin 256) (y : Fin 240) :
    s.drawObjects.fb.pixel x y = (objectColour s x y).or (s.fb.pixel x y) := by
  rw [State.drawObjects_fb, pixel_walkObjects]

/-- Settles O21: the walk overwrites from the highest slot down, so a pixel shows the first slot that paints it. -/
theorem lowestSlotWins : Obligations.LowestSlotWins := by
  refine fun s => ⟨s.drawObjects, exec_objwalk s, drawObjects_frame s, fun x y => ⟨fun i v hi hlower => ?lowest,
    fun hnone => ?untouched⟩⟩
  case lowest =>
    have hcolour : objectColour s x y = some v := by
      rw [objectColour_eq_findSome?]
      exact Fin.findSome?_eq_some_iff.mpr ⟨i, hi, hlower⟩
    rw [pixel_drawObjects, hcolour, Option.some_or]
  case untouched =>
    have hcolour : objectColour s x y = none := by
      rw [objectColour_eq_findSome?]
      exact Fin.findSome?_eq_none_iff.mpr hnone
    rw [pixel_drawObjects, hcolour, Option.none_or]

end Sys2Proof.Machine
end

section
/-! The Text Compositor and the Font Table: what a text cell paints, one of them and all of them, and the blocks of the
font image (R96 to R99). -/

namespace Sys2Proof.Machine

/-! ### What a text cell paints (R95, R96) -/

/-- A glyph has shade 3 where its pixel is on, else shade 0 (R95). -/
theorem glyphGrid_getElem (g : Glyph) (r c : TileCoord) : (glyphGrid g)[r][c] = if g[r][c] = true then 3 else 0 := by
  simp [glyphGrid]

/-- At the destination of a glyph pixel a text cell paints the text colour if that pixel is on, else nothing
(R96, R98). -/
theorem blitColour_text_inside (s : State) (i : Cell) (e : Txte) {x : Fin 256} {y : Fin 240} {r c : TileCoord}
    (hx : x.val = (cellX i).val + c.val) (hy : y.val = (cellY i).val + r.val) :
    blitColour s.pal (textBlit s i e) x y =
      if s.font[e.glyph][r][c] = true then some (paletteColour s.pal (textHue s.cfg e) 3) else none := by
  have hshade : (textBlit s i e).shades[mirrored (textBlit s i e).vflip r][mirrored (textBlit s i e).hflip c]
      = if s.font[e.glyph][r][c] = true then 3 else 0 := glyphGrid_getElem s.font[e.glyph] r c
  rw [blitColour_inside s.pal (textBlit s i e) hx.symm hy.symm, hshade]
  split
  case isTrue => rfl
  case isFalse => rfl

/-- Where an on bit decides whether a layer paints, what shows is the layer's colour or the value below (R90, R96). -/
theorem overlay_ite (on : Bool) (colour : Colour) (below : Option Colour) :
    (if on = true then some colour else none).or below = if on = true then some colour else below := by
  cases on with
  | true => rfl
  | false => exact Option.none_or

/-! ### One cell (R96) -/

/-- Settles O22: a pixel of another cell is painted by nothing, one of its own by the glyph pixel that lands there. -/
theorem txtcellDrawsOnPixels : Obligations.TxtcellDrawsOnPixels := by
  refine fun i e s => ⟨_, exec_txtcell i e s, rfl, fun x y h => ?other, fun x y r c hx hy => ?own⟩
  case other =>
    rw [State.setFb_fb, pixel_blitInto, blitColour_other_cell s.pal (textBlit_ox s i e) (textBlit_oy s i e) h,
      Option.none_or]
  case own =>
    rw [State.setFb_fb, pixel_blitInto, blitColour_text_inside s i e hx hy, overlay_ite]
    rfl

/-! ### All cells (R97) -/

/-- `TXTWALK` changes nothing but the buffer (R97). -/
theorem drawText_frame (s : State) : s.drawText = s.setFb s.drawText.fb := by
  rw [State.drawText_fb, State.drawText]

/-- The text layer's colour at a pixel comes from the entry of its cell and the glyph pixel that the coordinates
modulo 8 name (R96, R104). -/
theorem textColour_eq (s : State) {x : Fin 256} {y : Fin 240} {r c : TileCoord} {e : Txte} (hc : x.val % 8 = c.val)
    (hr : y.val % 8 = r.val) (he : s.textEntry (cellAt x y) = e) : textColour s x y =
      if s.font[e.glyph][r][c] = true then some (paletteColour s.pal (textHue s.cfg e) 3) else none := by
  have hx : x.val = (cellX (cellAt x y)).val + c.val := by simp only [cellX, cellAt]; omega
  have hy : y.val = (cellY (cellAt x y)).val + r.val := by simp only [cellY, cellAt]; omega
  rw [textColour, he, blitColour_text_inside s (cellAt x y) e hx hy]

/-- Settles O23: the entry of its cell paints a pixel, or the walk leaves what stood there. -/
theorem txtwalkOverlaysText : Obligations.TxtwalkOverlaysText := by
  refine fun s => ⟨s.drawText, exec_txtwalk s, drawText_frame s, fun x y r c e hc hr he => ?_⟩
  have hentry : s.textEntry (cellAt x y) = e := by
    rw [he, Nat.add_assoc]
    rfl
  rw [State.drawText_fb, pixel_walkText, textColour_eq s hc hr hentry, overlay_ite]
  rfl

/-! ### The font image (R99) -/

/-- What `FINIT` makes of one glyph pixel (R99). -/
theorem loadFont_getElem (free : Fin 128 → TileCoord → TileCoord → Bool) (img : FontImage) {g : Fin 128}
    {r c : TileCoord} {p : Colour} (h : glyphPixel img g r c = some p) :
    (loadFont free img)[g][r][c] = isPureWhite img p := by
  simp [loadFont, h]

/-- A pixel is pure white when its three channels are at the image's maximum (R99). -/
theorem isPureWhite_iff (img : FontImage) (p : Colour) :
    isPureWhite img p = true ↔ p.r = img.chMax ∧ p.g = img.chMax ∧ p.b = img.chMax := by
  simp [isPureWhite, and_assoc]

/-- What a complete image holds: a block's width, enough rows for the last block, and rows of its width (R99, U8). -/
theorem fontImage_complete_iff (img : FontImage) : img.complete = true ↔ 8 ≤ img.width ∧
    8 * (127 / (img.width / 8) + 1) ≤ img.rows.length ∧ ∀ row ∈ img.rows, row.length = img.width := by
  simp [FontImage.complete, and_assoc]

/-- An image has a pixel at every row and column inside it. -/
theorem exists_imagePixel {img : FontImage} (hrows : ∀ row ∈ img.rows, row.length = img.width) {py px : Nat}
    (hpy : py < img.rows.length) (hpx : px < img.width) : ∃ p, imagePixel img py px = some p := by
  have hlen : px < img.rows[py].length := (hrows _ (List.getElem_mem hpy)).symm ▸ hpx
  exact ⟨_, by rw [imagePixel, List.getElem?_eq_getElem hpy, Option.bind_some, List.getElem?_eq_getElem hlen]⟩

/-- A glyph's pixel is the image pixel in the glyph's block, counted row-major (R99). -/
theorem glyphPixel_eq {img : FontImage} (hwidth : 8 ≤ img.width) (g : Fin 128) (r c : TileCoord) :
    glyphPixel img g r c
      = imagePixel img (8 * (g.val / (img.width / 8)) + r.val) (8 * (g.val % (img.width / 8)) + c.val) :=
  if_neg (by omega)

/-- A complete image has every pixel of every glyph's block (R99). -/
theorem exists_glyphPixel {img : FontImage} (h : img.complete = true) (g : Fin 128) (r c : TileCoord) :
    ∃ p, glyphPixel img g r c = some p := by
  obtain ⟨hwidth, hheight, hrows⟩ := (fontImage_complete_iff img).mp h
  have hblockRow : g.val / (img.width / 8) ≤ 127 / (img.width / 8) := Nat.div_le_div_right (by omega)
  have hblockCol : g.val % (img.width / 8) < img.width / 8 := Nat.mod_lt _ (by omega)
  rw [glyphPixel_eq hwidth]
  exact exists_imagePixel hrows (by omega) (by omega)

/-- Settles O24: a complete image leaves no bit of `FONT` free, and each is the test of its block's pixel. -/
theorem finitScansBlocks : Obligations.FinitScansBlocks := by
  refine fun img s himg => ⟨_, exec_finit img s, rfl, fun g r c => ?_⟩
  obtain ⟨p, hp⟩ := exists_glyphPixel himg g r c
  have hwidth := ((fontImage_complete_iff img).mp himg).1
  refine ⟨p, (glyphPixel_eq hwidth g r c).symm.trans hp, ?_⟩
  rw [loadFont_getElem _ img hp]
  exact isPureWhite_iff img p

end Sys2Proof.Machine
end

section
/-! The Frame Buffer's own operations and the blit engine: clear, write, read and `BLIT` seen at one pixel (R100 to
R103). -/

namespace Sys2Proof.Machine

/-! ### Clear, write and read (R100 to R102) -/

/-- Settles O25: the cleared buffer is black at every pixel, and `FBCLR` replaces the buffer only. -/
theorem fbclrBlackensEveryPixel : Obligations.FbclrBlackensEveryPixel := fun s =>
  ⟨s.clearFrame, exec_fbclr s, by rw [State.clearFrame_fb, State.clearFrame], fun x y => by
    rw [State.clearFrame_fb, FrameBuffer.pixel_cleared, Colour.black]⟩

/-- A write outside the buffer is dropped: no pixel has such coordinates (R101). -/
theorem FrameBuffer.write_outside (fb : FrameBuffer) {px py : Nat} (v : Colour) (h : 256 ≤ px ∨ 240 ≤ py) :
    fb.write px py v = fb := by
  refine ext_pixel fun x y => ?_
  rw [pixel_write, if_neg]
  omega

/-- Settles O26, by what a write does to one pixel and by a write outside the buffer being dropped. -/
theorem fbwrWritesOnePixelOrNone : Obligations.FbwrWritesOnePixelOrNone := by
  refine fun px py v s => ⟨s.setFb (s.fb.write px py v), exec_fbwr px py v s, rfl, ?named, ?other, ?outside⟩
  case named =>
    intro x y hx hy
    rw [State.setFb_fb, FrameBuffer.pixel_write, if_pos ⟨hx.symm, hy.symm⟩]
  case other =>
    intro x y h
    rw [State.setFb_fb, FrameBuffer.pixel_write, if_neg (by omega)]
  case outside =>
    intro h
    rw [FrameBuffer.write_outside s.fb v h, State.setFb_self]

/-- A written pixel is returned (R102). -/
theorem execFbrd_written {x : Fin 256} {y : Fin 240} {s : State} {v : Colour} (h : s.fb.pixel x y = some v) :
    execFbrd x y s = .next (s.withReply (.colour v)) := by
  rw [execFbrd, h]

/-- Of a pixel that nothing has written a free colour is returned (R20, U4). -/
theorem execFbrd_unspecified {x : Fin 256} {y : Fin 240} {s : State} (h : s.fb.pixel x y = none) :
    execFbrd x y s = .next { s.withReply (.colour (freePixelColour s)) with drawn := s.drawn + 1 } := by
  rw [execFbrd, h]

/-- Each channel of a free colour is a remainder by `CH_MAX + 1` (R6, R20). -/
theorem within_freePixelColour (s : State) : (freePixelColour s).within s.cfg.chMax = true := by
  have hchannel (n : Nat) : n % 2 ^ s.cfg.chBits ≤ s.cfg.chMax :=
    Nat.le_sub_one_of_lt (Nat.mod_lt n (Nat.two_pow_pos s.cfg.chBits))
  simp only [Colour.within, freePixelColour, hchannel, decide_true, Bool.and_self]

/-- Settles O27: a pixel has a value, which is returned, or none, and then a free colour is. -/
theorem fbrdReturnsPixel : Obligations.FbrdReturnsPixel := fun x y s =>
  ⟨fun _ h => (exec_fbrd x y s).trans (execFbrd_written h), fun h =>
    ⟨freePixelColour s, within_freePixelColour s, (exec_fbrd x y s).trans (execFbrd_unspecified h)⟩⟩

/-! ### The blit engine (R103) -/

/-- A blit leaves every pixel outside its square (R103). -/
theorem pixel_blitInto_outside (pal : Palette) (b : Blit) (fb : FrameBuffer) {x : Fin 256} {y : Fin 240}
    (h : ¬((b.ox.val ≤ x.val ∧ x.val < b.ox.val + 8) ∧ (b.oy.val ≤ y.val ∧ y.val < b.oy.val + 8))) :
    (blitInto pal b fb).pixel x y = fb.pixel x y := by
  rw [pixel_blitInto, blitColour_outside pal b x y h, Option.none_or]

/-- At the destination of a tile pixel a blit leaves what stood there if the mirrored source pixel is transparent, and
else writes that pixel's colour (R90, R103). -/
theorem pixel_blitInto_inside (pal : Palette) (b : Blit) (fb : FrameBuffer) {x : Fin 256} {y : Fin 240}
    {r c : TileCoord} {sh : Shade} (hx : b.ox.val + c.val = x.val) (hy : b.oy.val + r.val = y.val)
    (hsh : b.shades[mirrored b.vflip r][mirrored b.hflip c] = sh) : (blitInto pal b fb).pixel x y =
      if b.transparent0 = true ∧ sh = 0 then fb.pixel x y else some (paletteColour pal b.hue sh) := by
  rw [pixel_blitInto, blitColour_inside pal b hx hy, hsh]
  simp only [Bool.and_eq_true, decide_eq_true_iff]
  split
  case isTrue => exact Option.none_or
  case isFalse => exact Option.some_or

/-- Settles O28, by what a blit does to a pixel outside its square and to the destination of a tile pixel. -/
theorem blitCopiesMirroredTile : Obligations.BlitCopiesMirroredTile := by
  refine fun b s => ⟨s.setFb (blitInto s.pal b s.fb), exec_blit b s, rfl, fun x y houtside => ?outside, ?inside⟩
  case outside => exact pixel_blitInto_outside s.pal b s.fb (by omega)
  case inside =>
    intro x y r c hx hy sr sc sh
    have hshade : b.shades[mirrored b.vflip r][mirrored b.hflip c] = sh := by
      simp only [mirrored_eq]
      rfl
    exact pixel_blitInto_inside s.pal b s.fb hx.symm hy.symm hshade

end Sys2Proof.Machine
end

section
/-! Frame composition: the layers' order at a pixel, and what the picture depends on (R104 to R108). -/

namespace Sys2Proof.Machine

/-! ### One composed pixel (R104, R108) -/

/-- The background is opaque, so nothing of the cleared buffer shows: the text, else the objects, else the background
(R84, R104, R105). -/
theorem pixel_compose_layers (s : State) (x : Fin 256) (y : Fin 240) : s.compose.fb.pixel x y
    = (textColour s x y).or ((objectColour s x y).or (backgroundColour s x y)) := by
  obtain ⟨h, sh, hbg⟩ := backgroundColour_palette s x y
  rw [pixel_compose, hbg, Option.some_or]

/-- Settles O29: at each pixel the topmost layer that paints it shows. -/
theorem composePaintsTextThenObjectThenBackground : Obligations.ComposePaintsTextThenObjectThenBackground := by
  refine fun s => ⟨s.compose, exec_compose s, compose_eq s, fun x y => ?_⟩
  rw [pixel_compose_layers]
  cases textColour s x y with
  | some v => rfl
  | none =>
    cases objectColour s x y with
    | some v => rfl
    | none => rfl

/-- Settles O30: every layer paints palette entries, and the background paints every pixel. -/
theorem composedPixelsArePaletteEntries : Obligations.ComposedPixelsArePaletteEntries := fun s =>
  ⟨s.compose, exec_compose s, pixel_compose_palette s⟩

/-! ### What the picture depends on (R35, R104) -/

/-- Two states of one configuration that agree on `PAL`, on `FONT` and on the first six regions of R33, the video
regions. -/
structure SameVideo (s t : State) : Prop where
  cfg : s.cfg = t.cfg
  pal : s.pal = t.pal
  font : s.font = t.font
  read : ∀ (n : Fin 8) (a : Nat), n.val < 6 → s.cfg.inRegion n a → s.mem.read a = t.mem.read a

namespace SameVideo

section
variable {s t : State} (h : SameVideo s t)
include h

theorem readTile_eq (table : PatternTable) (p : Fin 32) :
    s.readTile (patternAddr s.cfg table p) = t.readTile (patternAddr s.cfg table p) := by
  refine Vector.ext fun j hj => ?_
  rw [readTile_getElem, readTile_getElem]
  exact h.read _ _ (by cases table <;> decide) (Config.inRegion_pattern s.cfg table p hj)

/-- The entry, its pattern and the palette register lie in video regions (R33, R81). -/
theorem backgroundBlit_eq (i : Cell) :
    backgroundBlit s i (s.nametableEntry i) = backgroundBlit t i (t.nametableEntry i) := by
  have hentry : s.nametableEntry i = t.nametableEntry i := by
    rw [State.nametableEntry, h.read 2 _ (by decide) (Config.inRegion_nametable s.cfg i), h.cfg, State.nametableEntry]
  have hbgpal : s.readByte s.cfg.bgpalAddr = t.readByte s.cfg.bgpalAddr :=
    h.read 3 _ (by decide) (Config.inRegion_bgpal s.cfg)
  simp only [backgroundBlit, hentry, hbgpal, h.readTile_eq, ← h.cfg]

/-- The entry and its pattern lie in video regions (R33, R87). -/
theorem objectBlit_eq (k : ObjSlot) : objectBlit s (s.objectEntry k) = objectBlit t (t.objectEntry k) := by
  have hread (j : Nat) (hj : j < 4) : s.mem.read (objectAddr s.cfg k + j) = t.mem.read (objectAddr s.cfg k + j) :=
    h.read 4 _ (by decide) (Config.inRegion_object s.cfg k hj)
  have hx : s.mem.read (objectAddr s.cfg k) = t.mem.read (objectAddr s.cfg k) := hread 0 (by decide)
  have hentry : s.objectEntry k = t.objectEntry k := by
    simp only [State.objectEntry, ← h.cfg, hx, hread 1 (by decide), hread 2 (by decide), hread 3 (by decide)]
  simp only [objectBlit, hentry, h.readTile_eq, ← h.cfg]

/-- The entry lies in a video region and its glyph in `FONT` (R33, R96). -/
theorem textBlit_eq (i : Cell) : textBlit s i (s.textEntry i) = textBlit t i (t.textEntry i) := by
  have hentry : s.textEntry i = t.textEntry i := by
    rw [State.textEntry, h.read 5 _ (by decide) (Config.inRegion_text s.cfg i), h.cfg, State.textEntry]
  simp only [textBlit, hentry, h.font, h.cfg]

end

end SameVideo

/-- Settles O31: every blit of a composition is fetched from the video regions and `FONT`, so the two states compose
the same blits under one palette. -/
theorem pictureDependsOnVideoRegionsOnly : Obligations.PictureDependsOnVideoRegionsOnly := by
  intro s t hcfg hpal hfont hread
  have hvideo : SameVideo s t := ⟨hcfg, hpal, hfont, fun n a hn ⟨hlo, hhi⟩ =>
    hread a (s.cfg.region n) (List.mem_take_iff_getElem.mpr ⟨n.val, lt_min hn n.isLt, rfl⟩) hlo hhi⟩
  exact ⟨s.compose, t.compose, exec_compose s, exec_compose t,
    compose_fb_congr hpal hvideo.backgroundBlit_eq hvideo.objectBlit_eq hvideo.textBlit_eq⟩

end Sys2Proof.Machine
end

section
/-! The Input Latch: the controller byte and the keys as inverse images of each other, and what the latch can reach
in a legal layout (R56, R114 to R117). -/

namespace Sys2Proof.Config

theorem inRegion_ctrl1 (cfg : Config) : cfg.inRegion 6 cfg.ctrl1Addr.val :=
  ⟨Nat.le_refl _, Nat.lt_succ_self _⟩

theorem inRegion_ctrl2 (cfg : Config) : cfg.inRegion 7 cfg.ctrl2Addr.val :=
  ⟨Nat.le_refl _, Nat.lt_succ_self _⟩

end Sys2Proof.Config

namespace Sys2Proof.Machine

/-! ### The controller byte (R56, R114, R115) -/

/-- The number of a controller byte: the sum of the weights of the keys that are down (R115). -/
def keysWeight (k : Keys) : Nat :=
  128 * k.a.toNat + 64 * k.b.toNat + 32 * k.select.toNat + 16 * k.start.toNat + 8 * k.up.toNat + 4 * k.down.toNat
    + 2 * k.left.toNat + k.right.toNat

theorem bit_or (b c : Byte) (i : Nat) : bit (b ||| c) i = (bit b i || bit c i) := BitVec.getLsbD_or

theorem bit_buttonMask (down : Bool) (mask : Byte) (i : Nat) :
    bit (buttonMask down mask) i = (down && bit mask i) := by
  cases down with
  | false => exact BitVec.getLsbD_zero
  | true => rfl

/-- Each mask is one bit of its own, so software reads every key back (R56, R115). -/
theorem ofByte_ctrlByte (k : Keys) : Keys.ofByte (ctrlByte k) = k := by
  simp only [Keys.ofByte, ctrlByte, bit_or, bit_buttonMask]
  simp [bit]

theorem toNat_bit (b : Byte) (i : Nat) : (bit b i).toNat = b.toNat / 2 ^ i % 2 :=
  Nat.toNat_testBit b.toNat i

/-- A byte is the sum of its bits' weights (R7, R56). -/
theorem keysWeight_ofByte (b : Byte) : keysWeight (Keys.ofByte b) = b.toNat := by
  have hb := b.isLt
  simp only [keysWeight, Keys.ofByte, toNat_bit]
  omega

/-- The byte of `INLATCH` as a number (R114). -/
theorem ctrlByte_toNat (k : Keys) : (ctrlByte k).toNat = keysWeight k := by
  rw [← keysWeight_ofByte, ofByte_ctrlByte]

theorem ctrlByte_ofByte (b : Byte) : ctrlByte (Keys.ofByte b) = b :=
  BitVec.eq_of_toNat_eq ((ctrlByte_toNat _).trans (keysWeight_ofByte b))

/-- Settles O33: packing and unpacking undo each other bit by bit. -/
theorem ctrlByteIsBijection : Obligations.CtrlByteIsBijection :=
  ⟨rfl, rfl, rfl, rfl, rfl, rfl, rfl, rfl, ofByte_ctrlByte, ctrlByte_ofByte⟩

/-- Settles O32: the latch is one write to `MEM`. -/
theorem inlatchStoresOneBitPerKey : Obligations.InlatchStoresOneBitPerKey := by
  refine fun s => ⟨s.latchKeys, exec_inlatch s, rfl, fun a ha => ?kept, fun hwf => ?stored⟩
  case kept => exact Memory.read_write_ne _ _ fun h => ha (Fin.ext h.symm)
  case stored =>
    rw [State.latchKeys_mem, Memory.read_write hwf, if_pos rfl]
    exact ctrlByte_toNat s.keys

/-! ### What the latch reaches in a legal layout (R33, R116, R117) -/

/-- `INLATCH` keeps every byte of the other seven regions (R33, R116). -/
theorem read_latchKeys_region {s : State} (hlayout : s.cfg.disjoint) {n : Fin 8} (hn : n ≠ 6) {a : Nat}
    (ha : s.cfg.inRegion n a) : s.latchKeys.mem.read a = s.mem.read a := by
  refine Memory.read_write_ne _ _ ?_
  rintro rfl
  exact hn (Config.inRegion_unique hlayout ha (Config.inRegion_ctrl1 s.cfg))

/-- Settles O34: all that either operation writes to `MEM` is the latched byte, and `CTRL2` is another region than `CTRL1`. -/
theorem secondControllerNeverTouched : Obligations.SecondControllerNeverTouched := by
  intro s i hlayout hi
  have hkept : s.latchKeys.mem.read s.cfg.ctrl2Addr.val = s.mem.read s.cfg.ctrl2Addr.val :=
    read_latchKeys_region hlayout (by decide) (Config.inRegion_ctrl2 s.cfg)
  obtain rfl | rfl : i = .inlatch ∨ i = .framesync := by simpa using hi
  · exact ⟨s.latchKeys, exec_inlatch s, hkept⟩
  · refine ⟨s.frameSync, exec_framesync s, ?_⟩
    rw [State.frameSync_mem, ← State.latchKeys_mem, hkept]

/-- The latch's byte lies in no video region (R33, R117). -/
theorem sameVideo_latchKeys {s : State} (hlayout : s.cfg.disjoint) : SameVideo s.latchKeys s where
  cfg := rfl
  pal := rfl
  font := rfl
  read _ _ hn ha := read_latchKeys_region hlayout (Fin.ne_of_lt hn) ha

/-- Settles O35: the state before and after the latch compose the same blits under one palette. -/
theorem latchOrderCannotChangePicture : Obligations.LatchOrderCannotChangePicture := by
  intro s hlayout
  have hvideo := sameVideo_latchKeys hlayout
  exact ⟨s.compose, s.latchKeys, s.latchKeys.compose, exec_compose s, exec_inlatch s, exec_compose _,
    compose_fb_congr hvideo.pal hvideo.backgroundBlit_eq hvideo.objectBlit_eq hvideo.textBlit_eq⟩

end Sys2Proof.Machine
end

section
/-! The operator's line: its first character alone names its command, and a literal is its digits (R123,
R130). -/

namespace Sys2Proof

/-! ### Classification (R123, R124) -/

/-- Where one candidate at most has the typed character, that character decides: the loop looks no further. -/
theorem classifyFrom_cons_of_length_le_one {n : Nat} {cand : List Command} {ch : Byte}
    (h : (cand.filter fun w => decide (w.word[n]? = some ch)).length ≤ 1) (rest : List Byte) :
    classifyFrom n cand (ch :: rest) = (cand.filter fun w => decide (w.word[n]? = some ch)).head? := by
  rw [classifyFrom]
  split
  · next hnone => rw [hnone, List.head?_nil]
  · next w hone => rw [hone, List.head?_cons]
  · next w w' ws hmany => simp [hmany] at h

/-- The seven words begin with seven letters, so one of them at most begins with a given character. -/
theorem length_filter_vocabulary_le_one (ch : Byte) :
    (vocabulary.filter fun w => decide (w.word[0]? = some ch)).length ≤ 1 := by
  have hletters : (vocabulary.map fun w => w.word[0]?).Nodup := by decide
  calc (vocabulary.filter fun w => decide (w.word[0]? = some ch)).length
      = (vocabulary.map fun w => w.word[0]?).count (some ch) := by
        rw [List.count_eq_countP, List.countP_map, List.countP_eq_length_filter]
        simp only [Function.comp_def, beq_eq_decide]
    _ ≤ 1 := List.nodup_iff_count_le_one.mp hletters _

/-- Settles O6: one word at most begins with the first character, so what follows is not looked at. -/
theorem firstCharacterDecidesCommand : Obligations.FirstCharacterDecidesCommand := by
  refine ⟨rfl, fun ch rest => ?_⟩
  have hone := length_filter_vocabulary_le_one ch
  rw [classify, classify, classifyFrom_cons_of_length_le_one hone, classifyFrom_cons_of_length_le_one hone]

/-! ### Numeric literals (R130) -/

/-- The value a run of digits brings a value `v` to. -/
def foldDigits (base v : Nat) (ds : List Byte) : Nat :=
  ds.foldl (fun v ch => v * base + (digitValue base ch).getD 0) v

/-- Digits are scanned one by one, whatever comes after them. -/
theorem scanDigits_append {base : Nat} {ds : List Byte} (h : ∀ ch ∈ ds, (digitValue base ch).isSome = true)
    (v k : Nat) (rest : List Byte) :
    scanDigits base v k (ds ++ rest) = scanDigits base (foldDigits base v ds) (k + ds.length) rest := by
  induction ds generalizing v k with
  | nil => rfl
  | cons ch ds ih =>
    obtain ⟨d, hd⟩ := Option.isSome_iff_exists.mp (h ch List.mem_cons_self)
    rw [List.cons_append, scanDigits_cons hd, ih (fun c hc => h c (List.mem_cons_of_mem _ hc))]
    simp [foldDigits, hd, Nat.add_assoc, Nat.add_comm 1]

/-- A text whose lead names a base, with digits of that base after it, is parsed as their value. -/
theorem parseNum_of_literalBase {base : Nat} {text ds rest : List Byte}
    (hbase : literalBase (text.dropWhile isBlank) = (base, ds ++ rest)) (hne : ds ≠ [])
    (hdigits : ∀ ch ∈ ds, (digitValue base ch).isSome = true)
    (hstop : ∀ ch ∈ rest.head?, digitValue base ch = none) :
    parseNum text = (some (foldDigits base 0 ds), rest) := by
  have hscan : scanDigits base 0 0 (ds ++ rest) = (foldDigits base 0 ds, 0 + ds.length, rest) :=
    (scanDigits_append hdigits 0 0 rest).trans (scanDigits_stop hstop _ _)
  simp [parseNum, hbase, hscan, hne]

/-- Settles O7: the lead names the base, digits are scanned one by one, and the scan stops after them. -/
theorem numericLiteralIsItsDigits : Obligations.NumericLiteralIsItsDigits := by
  intro base lead ds rest hlead hne hdigits hstop
  refine parseNum_of_literalBase ?_ hne hdigits hstop
  rw [List.append_assoc]
  simp only [List.mem_cons, Prod.mk.injEq, List.not_mem_nil, or_false] at hlead
  obtain ⟨rfl, rfl⟩ | ⟨rfl, rfl⟩ | ⟨rfl, rfl⟩ := hlead
  case inl => rfl
  case inr.inl => rfl
  case inr.inr =>
    obtain ⟨ch, ds, rfl⟩ := List.exists_cons_of_ne_nil hne
    exact literalBase_decimal (hdigits ch List.mem_cons_self) (ds ++ rest)

end Sys2Proof
end

section
/-! A moment's turn: the close signal that ends the process, and the line no command matches (R121, R133, R155). -/

namespace Sys2Proof.Machine

/-- A step without a queued call is the turn of the next moment, in the mode the state was in (R5). -/
theorem step_nextMoment {s s₁ : State} {m : Moment} (hlive : ∀ e, s.mode ≠ .ended e) (hcalls : s.calls = [])
    (hnext : s.nextMoment = (m, s₁)) : step s = turn m s₁ ∧ s₁.mode = s.mode := by
  obtain ⟨inputs, drawn, heq⟩ := nextMoment_eq s
  rw [hnext] at heq
  obtain rfl : s₁ = _ := heq
  exact ⟨by rw [step_turn hlive hcalls, hnext], rfl⟩

/-! ### A close signal (R155) -/

theorem commandCycle_closes {m : Moment} {c : CloseSignal} (hclose : m.close = some c) (s : State)
    (want : CpuResult) : s.commandCycle want m = (s.sense m).endProcess (.closed c) := by
  simp only [State.commandCycle, hclose]

/-- A signal ends a process in every live mode, before the agent's turn; the prompt is displayed first (R122). -/
theorem turn_closes {s : State} {m : Moment} {c : CloseSignal} (hlive : ∀ e, s.mode ≠ .ended e)
    (hclose : m.close = some c) : turn m s = .next { s with
      mode := .ended (.closed c), keys := m.keys, dumpOpens := m.dumpOpens,
      console := if s.mode = .prompt then s.console ++ [.cpuDisplay] else s.console } := by
  cases hmode : s.mode with
  | running => simp only [turn, hmode, hclose]; rfl
  | prompt => simp only [turn, hmode, hclose]; rfl
  | executingStep => simp only [turn, hmode, commandCycle_closes hclose]; rfl
  | executingFrame => simp only [turn, hmode, commandCycle_closes hclose]; rfl
  | ended e => exact absurd hmode (hlive e)

/-- Settles O42: an ended process takes no turn, and a signal ends every other one at its turn. -/
theorem endOfProcessIsFinal : Obligations.EndOfProcessIsFinal := by
  refine ⟨fun s e hended => step_ended hended, fun s s₁ m c hlive hcalls hnext hclose => ?_⟩
  obtain ⟨hstep, hmode⟩ := step_nextMoment hlive hcalls hnext
  rw [hstep, turn_closes (hmode ▸ hlive) hclose, hmode]

/-! ### An unrecognized line (R133) -/

theorem decodeLine_eq_none {line : List Byte} (h : classify line = none) : decodeLine line = none := by
  rw [decodeLine, h]

/-- What the operator sees at a prompt whose line no command matches (R122, R133). -/
theorem showUsage_readLine (s : State) (m : Moment) : (s.readLine m).showUsage = { s with
    mode := .prompt, line := m.line, console := s.console ++ [.cpuDisplay, .usage] } := by
  simp [State.showUsage, State.readLine, State.print, State.enterMonitor]

/-- Settles O48: the moment's line is read, selects nothing, and the usage text is shown. -/
theorem unrecognizedLineShowsUsage : Obligations.UnrecognizedLineShowsUsage := by
  intro s s₁ m hmode hcalls hnext hclose hline
  obtain ⟨hstep, hmode₁⟩ := step_nextMoment (by simp [hmode]) hcalls hnext
  rw [hmode] at hmode₁
  obtain ⟨i, hi, -⟩ | ⟨-, hselect⟩ := select_line_cases ((s₁.sense m).readLine m)
  · exact absurd (hi.symm.trans (decodeLine_eq_none hline)) (by simp)
  · rw [hstep, turn_prompt hmode₁ hclose, hselect, showUsage_readLine, ← hmode₁]
    rfl

end Sys2Proof.Machine
end

section
/-! `RESET` from an image that is too long (R135, U7), and from the bytes of a memory (R129, R161). -/

namespace Sys2Proof.Machine

theorem execReset_next (l : Launch) (s : State) : ∃ t, execReset l s = .next t := by
  unfold execReset
  split <;> exact ⟨_, rfl⟩

/-- Of a launch's image only what is loaded from it counts (R161, R164). -/
theorem execReset_congr_image {l : Launch} {s : State} {image : ImageFile}
    (h : loadImage s.cfg l.image = loadImage s.cfg image) :
    execReset l s = execReset { l with image := image } s := by
  simp only [execReset, launchInputs, h]

theorem loadImage_exact (cfg : Config) {bytes : List Byte} (h : bytes.length = 65536) :
    loadImage cfg (.contents bytes) = .ok bytes := by
  simp [loadImage, h]

/-- The host's choice of U7 (log 10). -/
theorem loadImage_long (cfg : Config) {bytes : List Byte} (h : 65536 < bytes.length) :
    loadImage cfg (.contents bytes) =
      if cfg.longImageAccepted = true then .ok (bytes.take 65536) else .error .imageOversized := by
  rw [loadImage, if_neg (by omega), if_neg (by omega)]

/-- An image that cannot be loaded fails the start with its own error, whatever else fails (log 11). -/
theorem execReset_of_loadImage_error {l : Launch} {s : State} {e : StartupError}
    (h : loadImage s.cfg l.image = .error e) :
    execReset l s = .next ((s.print [.fatal e]).endProcess (.startup e)) := by
  simp only [execReset, launchInputs, h]

/-- Settles O46: a cut image loads as its first 65536 bytes do, and a rejected one is the first error diagnosed. -/
theorem longImageIsCutOrRejected : Obligations.LongImageIsCutOrRejected := by
  intro l bytes s himage hlong
  have hload := loadImage_long s.cfg hlong
  rw [← himage] at hload
  refine ⟨fun haccepted => ?cut, fun hrejected => ?rejected⟩
  case cut =>
    rw [if_pos haccepted, ← loadImage_exact s.cfg (List.length_take_of_le hlong.le)] at hload
    obtain ⟨t, ht⟩ := execReset_next l s
    exact ⟨t, ht, (execReset_congr_image hload).symm.trans ht⟩
  case rejected =>
    rw [if_neg (by simp [hrejected])] at hload
    exact execReset_of_loadImage_error hload

end Sys2Proof.Machine
end

section
/-! `step` and `frame`: the cycles a queue of moments brings, the composition that ends the command, and the wait for
a result that does not come (R109, R126, R127, U5). -/

namespace Sys2Proof.Machine

/-- A command that cycles the CPU up to a result, in a mode that awaits it (R126, R127). -/
structure Stepping (i : Instr) (want : CpuResult) (mode : Mode) : Prop where
  exec_eq : ∀ s : State, exec i s = .next (commandLoop want s.inputs { s with mode := mode })
  awaited : mode.awaited = some want

theorem stepping_step : Stepping .step .instructionBoundary .executingStep := ⟨exec_step, rfl⟩

theorem stepping_frame : Stepping .frame .frameSync .executingFrame := ⟨exec_frame, rfl⟩

theorem stepping_of_mem {i : Instr} {want : CpuResult} {mode : Mode}
    (h : (i, want, mode) ∈ [(Instr.step, CpuResult.instructionBoundary, Mode.executingStep),
      (Instr.frame, CpuResult.frameSync, Mode.executingFrame)]) : Stepping i want mode := by
  simp only [List.mem_cons, Prod.mk.injEq, List.not_mem_nil, or_false] at h
  obtain ⟨rfl, rfl, rfl⟩ | ⟨rfl, rfl, rfl⟩ := h
  · exact stepping_step
  · exact stepping_frame

/-- Each of the two results is awaited in a mode of its own (R121). -/
theorem exists_stepping_of_mem {i : Instr} {want : CpuResult}
    (h : (i, want) ∈ [(Instr.step, CpuResult.instructionBoundary), (Instr.frame, CpuResult.frameSync)]) :
    ∃ mode, Stepping i want mode := by
  simp only [List.mem_cons, Prod.mk.injEq, List.not_mem_nil, or_false] at h
  obtain ⟨rfl, rfl⟩ | ⟨rfl, rfl⟩ := h
  · exact ⟨_, stepping_step⟩
  · exact ⟨_, stepping_frame⟩

/-! ### The moments of a stepping command -/

theorem endsCommand_eq_false {want : CpuResult} {m : Moment} :
    endsCommand want m = false ↔ m.close = none ∧ m.cpu.result ≠ want := by
  simp [endsCommand]

theorem endsCommand_of_result {want : CpuResult} {m : Moment} (h : m.cpu.result = want) :
    endsCommand want m = true := by
  simp [endsCommand, h]

theorem endsCommand_of_close {m : Moment} {c : CloseSignal} (h : m.close = some c) (want : CpuResult) :
    endsCommand want m = true := by
  simp [endsCommand, h]

/-- The CPU cycles of some moments, seen from `MEM`: their stores, oldest first (R5, R38). -/
def State.cycled (s : State) (ms : List Moment) : State := s.cpuStores (ms.flatMap fun m => m.cpu.writes)

theorem cycled_append_singleton (s : State) (ms : List Moment) (m : Moment) :
    s.cycled (ms ++ [m]) = (s.cycled ms).cpuStores m.cpu.writes := by
  simp [State.cycled, State.cpuStores]

/-- A composition on the way back to the prompt writes the frame, the display and the mode (R104, R109). -/
theorem compose_enterMonitor {s : State} {fb : FrameBuffer} (h : s.compose.fb = fb) :
    s.compose.enterMonitor = { s with fb := fb, displayed := some fb, mode := .prompt } := by
  rw [compose_eq, h]
  rfl

/-- The composed frame depends on the configuration, the memory and the tables only (R104). -/
theorem compose_fb_of_memory_tables {s t : State} (hcfg : s.cfg = t.cfg) (hmem : s.mem = t.mem)
    (hpal : s.pal = t.pal) (hfont : s.font = t.font) : s.compose.fb = t.compose.fb := by
  have hvideo : SameVideo s t := ⟨hcfg, hpal, hfont, fun _ _ _ _ => by rw [hmem]⟩
  exact compose_fb_congr hpal hvideo.backgroundBlit_eq hvideo.objectBlit_eq hvideo.textBlit_eq

/-- A turn in a mode that awaits a result is one more cycle of its command (U5). -/
theorem turn_awaiting {s : State} {want : CpuResult} (h : s.mode.awaited = some want) (m : Moment) :
    turn m s = .next (s.commandCycle want m) := by
  cases hmode : s.mode with
  | executingStep => rw [hmode] at h; cases h; simp only [turn, hmode]
  | executingFrame => rw [hmode] at h; cases h; simp only [turn, hmode]
  | running => rw [hmode] at h; cases h
  | prompt => rw [hmode] at h; cases h
  | ended e => rw [hmode] at h; cases h

/-- A mode that awaits a result is not the end of the process. -/
theorem ne_ended_of_awaited {mode : Mode} {want : CpuResult} (h : mode.awaited = some want) (e : Ending) :
    mode ≠ .ended e := by
  rintro rfl
  cases h

namespace Stepping

section
variable {i : Instr} {want : CpuResult} {mode : Mode} (h : Stepping i want mode)
include h

/-- The command on a queue that one of its moments ends: the moments before have done their stores, the last one
takes its turn, the rest stays queued. -/
theorem exec_ends {s : State} {before rest : List Moment} {last : Moment} (hinputs : s.inputs = before ++ last :: rest)
    (hbefore : ∀ m ∈ before, m.close = none ∧ m.cpu.result ≠ want) (hlast : endsCommand want last = true) :
    exec i s = .next { ({ s.cycled before with
      mode := mode
      keys := (before.getLast?.map Moment.keys).getD s.keys
      dumpOpens := (before.getLast?.map Moment.dumpOpens).getD s.dumpOpens } : State).commandCycle want last with
        inputs := rest } := by
  have hgoes : ∀ m ∈ before, endsCommand want m = false := fun m hm => endsCommand_eq_false.mpr (hbefore m hm)
  have hloop := commandLoop_ends (rest := rest) hgoes hlast { s with mode := mode }
  rw [← hinputs, foldl_commandCycle before _ hgoes] at hloop
  rw [h.exec_eq, hloop]
  rfl

/-- The command on a queue without its result waits (R121, U5). -/
theorem exec_waits {s : State} (hinputs : ∀ m ∈ s.inputs, m.close = none ∧ m.cpu.result ≠ want) :
    exec i s = .next { s.cycled s.inputs with
      mode := mode, inputs := []
      keys := (s.inputs.getLast?.map Moment.keys).getD s.keys
      dumpOpens := (s.inputs.getLast?.map Moment.dumpOpens).getD s.dumpOpens } := by
  have hgoes : ∀ m ∈ s.inputs, endsCommand want m = false := fun m hm => endsCommand_eq_false.mpr (hinputs m hm)
  rw [h.exec_eq, commandLoop_waits hgoes, foldl_commandCycle s.inputs _ hgoes]
  rfl

/-- The command on a queue that brings its result: one composition of the memory the stores leave, no latch (R109). -/
theorem exec_finishes {s : State} {before rest : List Moment} {last : Moment}
    (hinputs : s.inputs = before ++ last :: rest) (hbefore : ∀ m ∈ before, m.close = none ∧ m.cpu.result ≠ want)
    (hclose : last.close = none) (hresult : last.cpu.result = want) {fb : FrameBuffer}
    (hframe : (s.cycled (before ++ [last])).compose.fb = fb) :
    exec i s = .next { s.cycled (before ++ [last]) with
      fb := fb, displayed := some fb, mode := .prompt, keys := last.keys, dumpOpens := last.dumpOpens
      inputs := rest } := by
  rw [cycled_append_singleton] at hframe ⊢
  rw [h.exec_ends hinputs hbefore (endsCommand_of_result hresult), commandCycle_finishes _ hclose hresult,
    compose_enterMonitor (fb := fb)]
  · rfl
  · exact (compose_fb_of_memory_tables rfl rfl rfl rfl).trans hframe

/-- A close signal that comes before the result ends the process with the stores done so far (R155). -/
theorem exec_closes {s : State} {before rest : List Moment} {last : Moment} {c : CloseSignal}
    (hinputs : s.inputs = before ++ last :: rest) (hbefore : ∀ m ∈ before, m.close = none ∧ m.cpu.result ≠ want)
    (hclose : last.close = some c) :
    exec i s = .next { s.cycled before with
      mode := .ended (.closed c), inputs := rest, keys := last.keys, dumpOpens := last.dumpOpens } := by
  rw [h.exec_ends hinputs hbefore (endsCommand_of_close hclose want), commandCycle_closes hclose]
  rfl

/-- A step of the waiting command is one more cycle on the next moment (R121, U5). -/
theorem step_awaiting {s s₁ : State} {m : Moment} (hmode : s.mode = mode) (hcalls : s.calls = [])
    (hnext : s.nextMoment = (m, s₁)) : step s = .next (s₁.commandCycle want m) := by
  have hawaited : s.mode.awaited = some want := hmode ▸ h.awaited
  obtain ⟨hstep, hmode₁⟩ := step_nextMoment (ne_ended_of_awaited hawaited) hcalls hnext
  rw [hstep, turn_awaiting (hmode₁ ▸ hawaited)]

end

end Stepping

/-- Settles O49, for either command by what it leaves on a queue that brings its result. -/
theorem steppingCommandsCycleThenCompose : Obligations.SteppingCommandsCycleThenCompose := by
  intro s i want before rest last hi hinputs hbefore hclose hresult
  obtain ⟨mode, hcommand⟩ := exists_stepping_of_mem hi
  exact ⟨_, _, _, rfl, exec_compose _, hcommand.exec_finishes hinputs hbefore hclose hresult rfl, rfl⟩

/-- Settles O50: the loop on a queue without the result, one more cycle of the wait, and the loop on a queue that a
signal cuts. -/
theorem steppingCommandWaitsForResult : Obligations.SteppingCommandWaitsForResult := by
  intro i want mode hi
  have hcommand := stepping_of_mem hi
  refine ⟨fun s hinputs => hcommand.exec_waits hinputs, fun s s₁ m hmode hcalls hnext hclose => ?goesOn,
    fun s before rest last c hinputs hbefore hclose => hcommand.exec_closes hinputs hbefore hclose⟩
  case goesOn =>
    have hstep := hcommand.step_awaiting hmode hcalls hnext
    refine ⟨(s₁.sense m).cpuStores m.cpu.writes, _, rfl, exec_compose _, fun hresult => ?ignored,
      fun hresult => ?awaited⟩
    case ignored => rw [hstep, commandCycle_goes_on s₁ (endsCommand_eq_false.mpr ⟨hclose, hresult⟩)]
    case awaited => rw [hstep, commandCycle_finishes s₁ hclose hresult, compose_enterMonitor rfl]

end Sys2Proof.Machine
end

section
/-! The commands that show, write and hand over: `help`, `run`, `quit`, `peek` and `dump` (R125, R128, R129, R131,
R132, U6). -/

namespace Sys2Proof.Machine

/-- Settles O47, by the meaning of each command. -/
theorem helpRunQuitOnlyControl : Obligations.HelpRunQuitOnlyControl := fun s =>
  ⟨exec_help s, exec_run s, exec_quit s⟩

/-! ### `peek` (R128, U6) -/

theorem peekLines_length (m : Memory) (lo hi : Nat) : (peekLines m lo hi).length = hi + 1 - lo := by
  simp [peekLines]

/-- The line of an address stands at its distance from the first one. -/
theorem peekLines_getElem? (m : Memory) {lo hi k : Nat} {a : Addr} (hk : lo + k ≤ hi) (ha : a.val = lo + k) :
    (peekLines m lo hi)[k]? = some (.memoryByte a (m.read a.val)) := by
  simp [peekLines, List.getElem?_range' (show k < hi + 1 - lo by omega), ← ha]

theorem peekLines_single (m : Memory) (a : Addr) : peekLines m a.val a.val = [.memoryByte a (m.read a.val)] := by
  have hfirst := peekLines_getElem? m (k := 0) (Nat.le_refl a.val) rfl
  refine List.ext_getElem? fun k => ?_
  cases k with
  | zero => exact hfirst
  | succ k => simp [peekLines]

theorem peekLines_backwards (m : Memory) {lo hi : Nat} (h : hi < lo) : peekLines m lo hi = [] :=
  List.eq_nil_of_length_eq_zero (by rw [peekLines_length]; omega)

/-- Operands that are addresses print their range (R128). -/
theorem peekMessages_range (m : Memory) {lo : Nat} {hi : Option Nat} (hlo : lo ≤ 65535) (hhi : hi.getD lo ≤ 65535) :
    peekMessages m (some lo) hi = peekLines m lo (hi.getD lo) :=
  if_neg (by omega)

/-- An operand above 0xFFFF is reported (U6). -/
theorem peekMessages_tooLarge (m : Memory) {lo : Nat} {hi : Option Nat} (h : 65535 < lo ∨ 65535 < hi.getD lo) :
    peekMessages m (some lo) hi = [.operandTooLarge] :=
  if_pos h

/-- `peek` only prints its answer and stays at the prompt. -/
theorem exec_peek_console {s : State} {lo hi : Option Nat} {ms : List Message} (h : peekMessages s.mem lo hi = ms) :
    exec (.peek lo hi) s = .next { s with console := s.console ++ ms, mode := .prompt } := by
  rw [exec_peek, h]
  rfl

/-- Settles O52, by the lines of a range, of a range of one address, and the report. -/
theorem peekPrintsInclusiveRange : Obligations.PeekPrintsInclusiveRange := by
  refine fun s => ⟨fun lo hi hle hhi => ?range, fun a => ?single, fun hi => exec_peek_console rfl⟩
  case range =>
    refine ⟨peekLines s.mem lo hi, exec_peek_console (peekMessages_range s.mem ?_ ?_), ?_,
      fun k a hk ha => peekLines_getElem? s.mem hk ha⟩
    · omega
    · exact Nat.le_of_lt_succ hhi
    · rw [peekLines_length]; omega
  case single =>
    have ha : a.val ≤ 65535 := Nat.le_of_lt_succ a.isLt
    exact exec_peek_console ((peekMessages_range s.mem (hi := none) ha ha).trans (peekLines_single s.mem a))

/-- Settles O53: such an address is reported, and a backward range has no line. -/
theorem peekOpenCasesPrintNoByte : Obligations.PeekOpenCasesPrintNoByte := by
  refine fun lo s => ⟨fun hi hlarge => exec_peek_console (peekMessages_tooLarge s.mem hlarge),
    fun hi hback hlo => ?_⟩
  have hhi : (some hi).getD lo ≤ 65535 := by simp only [Option.getD_some]; omega
  rw [exec_peek_console ((peekMessages_range s.mem hlo hhi).trans (peekLines_backwards s.mem hback)),
    List.append_nil]

/-! ### `dump` (R129) -/

theorem exec_dump_opens {s : State} (h : s.dumpOpens = true) :
    exec .dump s = .next { s with dumpFile := some s.mem.toBytes, mode := .prompt } :=
  if_pos h

theorem exec_dump_fails {s : State} (h : s.dumpOpens = false) :
    exec .dump s = .next { s with console := s.console ++ [.dumpOpenFailed], mode := .prompt } :=
  if_neg (by simp [h])

namespace Memory

theorem toBytes_length (m : Memory) : m.toBytes.length = 65536 := by
  rw [toBytes, List.length_map, List.length_range]

theorem toBytes_getElem? (m : Memory) {a : Nat} (ha : a < 65536) : m.toBytes[a]? = some (m.read a) := by
  rw [toBytes, List.getElem?_map, List.getElem?_range ha, Option.map_some]

/-- Canonical memories with the same 65536 bytes are equal: above the address space they list nothing. -/
theorem eq_of_read_eq {m n : Memory} (hm : m.wf = true) (hn : n.wf = true)
    (h : ∀ a < 65536, m.read a = n.read a) : m = n := by
  refine ext_read hm hn fun a => ?_
  by_cases ha : a < 65536
  · exact h a ha
  · rw [read_above hm (by omega), read_above hn (by omega)]

/-- Loading the bytes of a memory gives the memory back (R129, R135). -/
theorem ofBytes_toBytes {m : Memory} (h : m.wf = true) : ofBytes 0 m.toBytes = m := by
  refine eq_of_read_eq (wf_ofBytes _ m.toBytes_length.le) h fun a ha => ?_
  have hread := read_ofBytes m.toBytes (a := 0) (x := a) (by rw [toBytes_length]) (by rwa [toBytes_length])
  rw [toBytes_getElem? m ha, Nat.zero_add] at hread
  exact Option.some.inj hread

end Memory

/-- Settles O54: the file is the bytes of the memory, and a failure to open it is one message. -/
theorem dumpWritesWholeMemory : Obligations.DumpWritesWholeMemory := fun s =>
  ⟨fun hopens => ⟨s.mem.toBytes, exec_dump_opens hopens, s.mem.toBytes_length,
    fun a => s.mem.toBytes_getElem? a.isLt⟩, exec_dump_fails⟩

/-- A complete start loads its image (R161). -/
theorem execReset_mem_of_complete {bytes : List Byte} (hlen : bytes.length = 65536) (full : FullColours)
    (img : FontImage) (s : State) :
    ∃ u, execReset ⟨.contents bytes, full, some img, true⟩ s = .next u ∧ u.mem = Memory.ofBytes 0 bytes := by
  simp only [execReset, launchInputs, loadImage_exact s.cfg hlen, if_true]
  exact ⟨_, rfl, rfl⟩

/-- Settles O55: the file has the length of an image, and loading the bytes of a memory gives it back. -/
theorem dumpedFileReloads : Obligations.DumpedFileReloads := by
  intro s full img hwf hopens
  obtain ⟨u, hreset, hmem⟩ := execReset_mem_of_complete s.mem.toBytes_length full img
    { s with dumpFile := some s.mem.toBytes, mode := .prompt }
  exact ⟨_, u, s.mem.toBytes, exec_dump_opens hopens, rfl, hreset, hmem.trans (Memory.ofBytes_toBytes hwf)⟩

end Sys2Proof.Machine
end

section
/-! The driver loop's dispatch and its two events: FRAMESYNC and HALT (R143 to R145, R150). -/

namespace Sys2Proof.Machine

/-- The latch on a composed state changes the frame, the hand-off and `MEM` (R106, R116). -/
theorem latchKeys_composed {s c : State} {fb : FrameBuffer} (h : c = { s with fb := fb, displayed := some fb }) :
    c.latchKeys = { s with fb := fb, displayed := some fb, mem := c.latchKeys.mem } := by
  subst h
  rfl

/-- Settles O36: pacing leaves what the latch makes of the composed state, and the latch writes one byte. -/
theorem framesyncComposesThenLatches : Obligations.FramesyncComposesThenLatches := by
  intro s
  refine ⟨s.compose, s.compose.latchKeys, s.frameSync, exec_compose s, exec_inlatch _,
    (State.pace_eq _).trans (State.frameSync_eq s).symm, exec_framesync s, State.frameSync_eq s, ?frame,
    fun a ha => ?kept⟩
  case frame =>
    rw [State.frameSync_eq]
    exact latchKeys_composed (compose_eq s)
  case kept =>
    rw [State.frameSync_mem]
    exact Memory.read_write_ne _ _ fun h => ha (Fin.ext h.symm)

/-- Settles O37, by the meaning of the event. -/
theorem haltOnlyEntersMonitor : Obligations.HaltOnlyEntersMonitor := exec_halt

/-- Settles O38: without a signal the driver loop's turn is the cycle's stores and the dispatch of its result. -/
theorem driverDispatchesStepResult : Obligations.DriverDispatchesStepResult := by
  intro s s₁ m hmode hcalls hnext hclose
  refine ⟨(s₁.sense m).cpuStores m.cpu.writes, rfl, ?_⟩
  obtain ⟨hstep, hmode₁⟩ := step_nextMoment (by simp [hmode]) hcalls hnext
  obtain ⟨c, hc, -⟩ | ⟨-, hturn⟩ := turn_running_cases (hmode₁.trans hmode) m
  · exact absurd (hc.symm.trans hclose) (by simp)
  · rw [hstep, hturn]
    cases m.cpu.result with
    | continuing => exact select_none rfl
    | instructionBoundary => exact select_none rfl
    | frameSync => exact select_some (bs := []) rfl
    | halt => exact select_some (bs := []) rfl

end Sys2Proof.Machine
end

section
/-! No operation and no step faults, is refused or changes the fixed parameters (R6, R140, R160). -/

namespace Sys2Proof.Machine

/-- The answer is a next state, under these parameters. -/
def NextUnder (cfg : Config) (o : Host.Outcome State Fault Refusal) : Prop := ∃ t, o = .next t ∧ t.cfg = cfg

/-! ### What an operation answers -/

/-- One turn of a stepping command stores, and may compose (R126, R127). -/
theorem commandCycle_cfg (s : State) (want : CpuResult) (m : Moment) : (s.commandCycle want m).cfg = s.cfg := by
  obtain ⟨c, -, heq⟩ | ⟨-, -, heq⟩ | ⟨-, -, heq⟩ := commandCycle_cases s want m <;> rw [heq]
  · rfl
  · rfl
  · rw [State.enterMonitor_cfg, State.compose_cfg, State.cpuStores_cfg, State.sense_cfg]

/-- The loop of a stepping command, whether it returns or waits (R126, R127). -/
theorem commandLoop_cfg (s : State) (want : CpuResult) (ms : List Moment) : (commandLoop want ms s).cfg = s.cfg :=
  commandLoop_keeps (P := fun u => u.cfg = s.cfg) (fun m _ u hu => (commandCycle_cfg u want m).trans hu)
    (fun _ _ hu => hu) rfl

/-- `RESET` answers whether or not the start fails (R161, R164). -/
theorem nextUnder_execReset (l : Launch) (s : State) : NextUnder s.cfg (execReset l s) := by
  unfold execReset
  split <;> exact ⟨_, rfl, rfl⟩

/-- `FBRD` answers whether or not the pixel is specified (R102). -/
theorem nextUnder_execFbrd (x : Fin 256) (y : Fin 240) (s : State) : NextUnder s.cfg (execFbrd x y s) := by
  unfold execFbrd
  split <;> exact ⟨_, rfl, rfl⟩

/-- `dump` answers whether or not the file opens (R129). -/
theorem nextUnder_execDump (s : State) : NextUnder s.cfg (execDump s) := by
  unfold execDump
  split <;> exact ⟨_, rfl, rfl⟩

/-- Every operation answers in every state, and none writes a parameter (R140, R160). -/
theorem nextUnder_exec (i : Instr) (s : State) : NextUnder s.cfg (exec i s) := by
  cases i with
  | reset l => exact nextUnder_execReset l s
  | fbrd x y => exact nextUnder_execFbrd x y s
  | dump => exact nextUnder_execDump s
  | step => exact ⟨_, exec_step s, commandLoop_cfg _ _ _⟩
  | frame => exact ⟨_, exec_frame s, commandLoop_cfg _ _ _⟩
  | compose => exact ⟨_, exec_compose s, State.compose_cfg s⟩
  | framesync => exact ⟨_, exec_framesync s, State.frameSync_cfg s⟩
  | bgwalk => exact ⟨_, exec_bgwalk s, State.drawBackground_cfg s⟩
  | objwalk => exact ⟨_, exec_objwalk s, State.drawObjects_cfg s⟩
  | txtwalk => exact ⟨_, exec_txtwalk s, State.drawText_cfg s⟩
  | pdec | bgtile | objdraw | txtcell | bgpal | inlatch | pdect | pinit | plut | finit | fbclr | fbwr | blit | halt
  | help | peek | run | quit => exact ⟨_, rfl, rfl⟩

/-! ### What a step answers -/

/-- A selection without an operation shows the usage text or does nothing (R133, R143). -/
theorem unselected_cfg (s : State) (sel : Selection) : (s.unselected sel).cfg = s.cfg := by
  cases sel <;> rfl

/-- A selection answers whether or not it selects an operation. -/
theorem nextUnder_select (sel : Selection) (s : State) : NextUnder s.cfg (select sel s) := by
  cases hdecode : decode sel (s.fetch sel) with
  | none => exact ⟨_, select_none hdecode, unselected_cfg s sel⟩
  | some word => rw [select_some (i := word.1) (bs := word.2) hdecode]; exact nextUnder_exec _ s

/-- A turn answers in every mode, close signal or not (R143, R155). -/
theorem nextUnder_turn (m : Moment) (s : State) : NextUnder s.cfg (turn m s) := by
  cases hmode : s.mode with
  | ended e => simp only [turn, hmode]; exact ⟨_, rfl, rfl⟩
  | running =>
    obtain ⟨c, -, hturn⟩ | ⟨-, hturn⟩ := turn_running_cases hmode m <;> rw [hturn]
    · exact ⟨_, rfl, rfl⟩
    · exact nextUnder_select _ ((s.sense m).cpuStores m.cpu.writes)
  | prompt =>
    cases hclose : m.close with
    | some c => exact ⟨_, turn_closes (by simp [hmode]) hclose, rfl⟩
    | none => rw [turn_prompt hmode hclose]; exact nextUnder_select _ ((s.sense m).readLine m)
  | executingStep => exact ⟨_, turn_awaiting (by rw [hmode]; rfl) m, commandCycle_cfg s _ m⟩
  | executingFrame => exact ⟨_, turn_awaiting (by rw [hmode]; rfl) m, commandCycle_cfg s _ m⟩

/-- A step leaves an ended process, runs the oldest queued call, or is a turn at the next moment (R140, R160). -/
theorem nextUnder_step (s : State) : NextUnder s.cfg (step s) := by
  by_cases hended : ∃ e, s.mode = .ended e
  · obtain ⟨e, he⟩ := hended
    exact ⟨s, step_ended he, rfl⟩
  · have hlive := not_exists.mp hended
    cases hcalls : s.calls with
    | cons sel rest =>
      rw [step_call hlive hcalls]
      exact nextUnder_select sel { s with calls := rest }
    | nil =>
      obtain ⟨inputs, drawn, heq⟩ := nextMoment_eq s
      rw [step_turn hlive hcalls, heq]
      exact nextUnder_turn _ { s with inputs := inputs, drawn := drawn }

/-- Settles O41, by what a step answers. -/
theorem everyStepGivesNextState : Obligations.EveryStepGivesNextState := by
  intro s
  obtain ⟨t, hstep, -⟩ := nextUnder_step s
  exact ⟨t, hstep⟩

/-- Settles O58: a step has one answer, and that one is under the same parameters. -/
theorem parametersNeverChange : Obligations.ParametersNeverChange := by
  intro s t hstep
  obtain ⟨u, hu, hcfg⟩ := nextUnder_step s
  obtain rfl : u = t := Host.Outcome.next.inj (hu.symm.trans hstep)
  exact hcfg

end Sys2Proof.Machine
end

section
/-! `RESET`: what a start needs, what it leaves, and how it fails (R160 to R164). -/

namespace Sys2Proof.Machine

/-- An image that loads is a file that is long enough (R135, R141). -/
theorem loadImage_ok {cfg : Config} {f : ImageFile} {bytes : List Byte} (h : loadImage cfg f = .ok bytes) :
    ∃ file, f = .contents file ∧ 65536 ≤ file.length := by
  cases f with
  | missingArgument => cases h
  | unreadable => cases h
  | contents file =>
    refine ⟨file, rfl, Nat.le_of_not_lt fun hshort => ?_⟩
    rw [loadImage, if_pos hshort] at h
    cases h

/-- A start has its inputs exactly when the image loads, the font asset is read and the presentation layer
initialises (R164). -/
theorem launchInputs_eq_ok_iff {cfg : Config} {l : Launch} {bytes : List Byte} {img : FontImage} :
    launchInputs cfg l = .ok (bytes, img) ↔
      loadImage cfg l.image = .ok bytes ∧ l.font = some img ∧ l.presentation = true := by
  unfold launchInputs
  cases loadImage cfg l.image with
  | error e => simp
  | ok image =>
    cases l.font with
    | none => simp
    | some asset => cases l.presentation <;> simp

/-- Each of the failures R164 names is a fatal startup error. -/
theorem launchInputs_fails (cfg : Config) {l : Launch}
    (h : l.image = .missingArgument ∨ l.image = .unreadable ∨
      (∃ bytes, l.image = .contents bytes ∧ bytes.length < 65536) ∨ l.font = none ∨ l.presentation = false) :
    ∃ e, launchInputs cfg l = .error e := by
  cases hinputs : launchInputs cfg l with
  | error e => exact ⟨e, rfl⟩
  | ok inputs =>
    obtain ⟨hload, hfont, hpresentation⟩ := launchInputs_eq_ok_iff.mp hinputs
    obtain ⟨file, himage, hlen⟩ := loadImage_ok hload
    obtain hmissing | hunreadable | ⟨short, hcontents, hshort⟩ | hnone | hfalse := h
    · cases himage.symm.trans hmissing
    · cases himage.symm.trans hunreadable
    · cases himage.symm.trans hcontents; omega
    · cases hfont.symm.trans hnone
    · cases hpresentation.symm.trans hfalse

theorem execReset_of_launchInputs_error {l : Launch} {s : State} {e : StartupError}
    (h : launchInputs s.cfg l = .error e) :
    execReset l s = .next ((s.print [.fatal e]).endProcess (.startup e)) := by
  rw [execReset, h]

/-- The state a start leaves: a new process in the environment of the old one (R161, log 28). -/
theorem execReset_of_launchInputs {l : Launch} {s : State} {bytes : List Byte} {img : FontImage}
    (h : launchInputs s.cfg l = .ok (bytes, img)) :
    execReset l s = .next { State.afterReset s.cfg (Memory.ofBytes 0 bytes) (derivePalette l.full)
        (loadFont (Config.freeFontBit s.drawn) img) with
      keys := s.keys, dumpFile := s.dumpFile, dumpOpens := s.dumpOpens, calls := s.calls, inputs := s.inputs,
      drawn := s.drawn + 1 } := by
  rw [execReset, h]

/-- An image of the size of `MEM` is loaded byte for byte (R14, R161). -/
theorem read_ofBytes_zero {bytes : List Byte} (hlen : bytes.length = 65536) (a : Addr) :
    some ((Memory.ofBytes 0 bytes).read a.val) = bytes[a.val]? := by
  have hread := Memory.read_ofBytes bytes (a := 0) (x := a.val) (by omega) (by omega)
  rwa [Nat.zero_add] at hread

/-- Settles O44: a complete launch gives its inputs, and every field of the state they leave is named. -/
theorem resetLoadsImageAndTables : Obligations.ResetLoadsImageAndTables := by
  intro l bytes img s himage hlen hfont hpresentation
  have hload : loadImage s.cfg l.image = .ok bytes := himage ▸ loadImage_exact s.cfg hlen
  have hinputs := launchInputs_eq_ok_iff.mpr ⟨hload, hfont, hpresentation⟩
  exact ⟨_, _, _, execReset_of_launchInputs hinputs, exec_pinit l.full s, exec_finit img s, rfl, rfl,
    read_ofBytes_zero hlen, Memory.wf_ofBytes bytes hlen.le, FrameBuffer.pixel_unspecified,
    rfl, rfl, rfl, rfl, rfl, rfl, rfl, rfl, rfl, rfl, rfl, rfl⟩

/-- Settles O45: the error is printed, and an ended process takes no step. -/
theorem failedStartNeverRuns : Obligations.FailedStartNeverRuns := by
  intro l s hfails
  obtain ⟨e, he⟩ := launchInputs_fails s.cfg hfails
  exact ⟨e, _, execReset_of_launchInputs_error he, rfl, step_ended rfl⟩

end Sys2Proof.Machine
end

section
/-! `step` and `frame` seen at one byte of `MEM`: no key is latched (R109, R117, R168). -/

namespace Sys2Proof.Machine

/-- One turn of a stepping command keeps every byte that its CPU cycle does not store to: it composes, and does not
latch (R109). -/
theorem read_commandCycle {m : Moment} {a : Addr} (h : ∀ w ∈ m.cpu.writes, w.1 ≠ a) (s : State)
    (want : CpuResult) :
    (s.commandCycle want m).mem.read a.val = s.mem.read a.val := by
  have hstores : ((s.sense m).cpuStores m.cpu.writes).mem.read a.val = s.mem.read a.val :=
    Memory.read_stores m.cpu.writes s.mem h
  obtain ⟨c, -, heq⟩ | ⟨-, -, heq⟩ | ⟨-, -, heq⟩ := commandCycle_cases s want m <;> rw [heq]
  · rfl
  · exact hstores
  · rw [State.enterMonitor_mem, State.compose_mem, hstores]

/-- The loop of a stepping command keeps every byte that no cycle stores to. -/
theorem read_commandLoop {ms : List Moment} {a : Addr} (h : ∀ m ∈ ms, ∀ w ∈ m.cpu.writes, w.1 ≠ a) (s : State)
    (want : CpuResult) : (commandLoop want ms s).mem.read a.val = s.mem.read a.val :=
  commandLoop_keeps (P := fun u => u.mem.read a.val = s.mem.read a.val)
    (fun m hm u hu => (read_commandCycle (h m hm) u want).trans hu) (fun _ _ hu => hu) rfl

/-- Settles O51: either command is a loop of cycles, none of which latches. -/
theorem monitorNeverLatchesKeys : Obligations.MonitorNeverLatchesKeys := by
  intro s i a hi hstores
  obtain rfl | rfl : i = .step ∨ i = .frame := by simpa using hi
  · exact ⟨_, exec_step s, read_commandLoop hstores { s with mode := .executingStep } _⟩
  · exact ⟨_, exec_frame s, read_commandLoop hstores { s with mode := .executingFrame } _⟩

end Sys2Proof.Machine
end
